-- ==== Sys2Proof/Word.lean ====
section
/-! DEFINITION. The word types of the CORE, each as wide as the spec gives it. -/

namespace Sys2Proof

/-- One byte of the host port (20_memory.md R68) and of every window register (R63). -/
abbrev Byte := BitVec 8

/-- r1, 19 bits (10_state.md R21). -/
abbrev Word1 := BitVec 19

/-- r2, 22 bits (10_state.md R22). -/
abbrev Word2 := BitVec 22

/-- r3, 23 bits (10_state.md R23). -/
abbrev Word3 := BitVec 23

/-- r4, 17 bits (10_state.md R24). -/
abbrev Word4 := BitVec 17

/-- A key of 64 bits, as KLATCH holds it (10_state.md R42). -/
abbrev KeyWord := BitVec 64

/-- A frame number of 22 bits, as FLATCH holds it (10_state.md R42). -/
abbrev FrameWord := BitVec 22

/-- The 114 one-bit cells of an output buffer (10_state.md R43, R44): cell i is bit i (notes/assumptions/11.md). -/
abbrev Burst := BitVec 114

end Sys2Proof
end

