-- ==== Sys2Proof/Config.lean ====
section
/-! DEFINITION. The values the spec leaves open: three free values of the `rdata` port, one for each case.
None has a body, so a claim holds whatever they are. Each is applied to State's counter `draws`, so that every
cycle that draws one has a value of its own (notes/assumptions/4.md, DESIGN CHOICE of the form, safe). -/

namespace Sys2Proof

/-- RESET_RDATA: `rdata` in a cycle with rst = 1, "any 8-bit value, possibly different on each such cycle"
(70_reset_and_hazards.md R215; 00_scope.md R8). -/
opaque Config.resetRdata : Nat → Byte

/-- `rdata` in a cycle with re = 1 and we = 1 (70_reset_and_hazards.md R224). -/
opaque Config.bothStrobesRdata : Nat → Byte

/-- `rdata` in a cycle with re = 0 (70_reset_and_hazards.md R225). -/
opaque Config.idleRdata : Nat → Byte

end Sys2Proof
end

