-- ==== Sys2Proof/Syntax.lean ====
section
/-! DEFINITION. The command syntax: one constructor for each row of spec/opcode_table.json, and the fields of
the command byte. -/

namespace Sys2Proof

/-- The two cipher variants (00_scope.md R2), selected by the V field of SETUP (30_encoding.md R82). -/
inductive Variant where
  /-- V = 0: r1, r2 and r3, majority clocking on a bit of each. -/
  | linear
  /-- V = 1: r4 drives the clocking; nonlinear output with a one-step delay. -/
  | nonLinear
deriving DecidableEq, Repr

/-- The fields of a command byte (30_encoding.md R80), before any check. -/
structure CommandFields where
  /-- Bits 7:5, reserved. -/
  rsv : BitVec 3
  /-- Bit 4, the variant selector. -/
  v : BitVec 1
  /-- Bits 3:0, the operation code. -/
  op : BitVec 4
deriving DecidableEq, Repr

/-- The commands (30_encoding.md R81). The key and the frame are no part of the command: they are the registers
KEY_REG and FRAME_REG (R80). -/
inductive Instr where
  /-- NOP (45_commands.md R172). -/
  | nop
  /-- SETUP.L and SETUP.N (45_commands.md R173): one row of the table, V its operand. -/
  | setup (v : Variant)
  /-- GEN_DUAL (45_commands.md R175). -/
  | genDual
  /-- GEN_SINGLE (45_commands.md R177). -/
  | genSingle
deriving DecidableEq, Repr

end Sys2Proof
end

