-- ==== Sys2Proof/Machine/State.lean ====
section
/-! DEFINITION. The state of the CORE (10_state.md R20), the host as its input, the outcomes, and reset. -/

namespace Sys2Proof.Machine

/-- The LFSR bank and DELAY (10_state.md R20-R25). Each register has exactly its width's bits, so the masking
invariant of R26 holds by construction. -/
structure Bank where
  /-- r1 (R21). -/
  r1 : Word1
  /-- r2 (R22). -/
  r2 : Word2
  /-- r3 (R23). -/
  r3 : Word3
  /-- r4 (R24), present in both variants. -/
  r4 : Word4
  /-- DELAY (R25). -/
  delay : Bool
deriving DecidableEq, Repr

/-- The bank Zeroed (43_key_setup.md R131), which is also its reset value (10_state.md R54). -/
def Bank.zeroed : Bank := { r1 := 0, r2 := 0, r3 := 0, r4 := 0, delay := false }

/-- The eight values of PHASE (10_state.md R38; the encoding is free, 92_eei_decisions.md D36). -/
inductive Phase where
  /-- No command executing. -/
  | idle
  /-- Key loading. -/
  | key
  /-- Frame loading. -/
  | frame
  /-- Mixing. -/
  | mix
  /-- NonLinear priming. -/
  | prime
  /-- Dual mode, A→B burst. -/
  | genAB
  /-- Dual mode, B→A burst. -/
  | genBA
  /-- Single mode burst. -/
  | genS
deriving DecidableEq, Repr

/-- What the host drives in one clock cycle: the CORE's input ports less `clk` (20_memory.md R61). -/
structure Pins where
  /-- Synchronous reset, active high. -/
  rst : Bool
  /-- Write strobe. -/
  we : Bool
  /-- Read strobe. -/
  re : Bool
  /-- Window offset of the access. -/
  addr : Byte
  /-- Write data. -/
  wdata : Byte
deriving DecidableEq, Repr

/-- What the host does next: the one thing a host program is made of (30_encoding.md R89, R90;
notes/assumptions/2.md). -/
inductive HostAction where
  /-- One clock cycle with these pins. -/
  | cycle (p : Pins)
  /-- WAIT: read STATUS in every cycle until bit 0 of the value read is 0 (30_encoding.md R90). -/
  | wait
deriving DecidableEq, Repr

/-- The whole state. All but the last three fields are the CORE's (10_state.md R20). The last three are the
model's own (notes/assumptions/2.md, 4.md, 5.md). -/
structure State where
  /-- r1, r2, r3, r4 and DELAY (R21-R25). -/
  bank : Bank
  /-- VARIANT (R34). -/
  variant : Variant
  /-- READY (R35). -/
  ready : Bool
  /-- BUSY (R36). -/
  busy : Bool
  /-- ERR (R39). -/
  err : BitVec 3
  /-- PHASE (R38). -/
  phase : Phase
  /-- STEP (R38). -/
  stepNo : BitVec 7
  /-- KEY_REG[0..7] (R40). -/
  keyReg : Vector Byte 8
  /-- FRAME_REG (R41). -/
  frameReg : BitVec 24
  /-- KLATCH (R42). -/
  klatch : KeyWord
  /-- FLATCH (R42). -/
  flatch : FrameWord
  /-- AB_BITS (R43). -/
  abBits : Burst
  /-- BA_BITS (R43). -/
  baBits : Burst
  /-- SGL_BITS (R44). -/
  sglBits : Burst
  /-- The host's coming actions, first one first. When there is none the host is idle. -/
  host : List HostAction
  /-- The value the `rdata` port showed in the last cycle. -/
  rdata : Byte
  /-- How many free values of `rdata` were drawn. -/
  draws : Nat
deriving DecidableEq, Repr

/-- Why the machine could stop with a fault. There is no such reason: "micro-steps never fail" and "once accepted,
every command completes" (60_exceptions.md R199), there are no traps (R203), and an error is a value in ERR
(R190). Nothing raises a fault, which is neither safe nor unsafe (notes/assumptions/10.md). -/
inductive Fault where
deriving DecidableEq, Repr

/-- Why the model could refuse a step. -/
inductive Refusal where
  /-- Raised by an arm of `exec` that has no meaning yet. Safe: nothing can be proved of a step that is refused. No
  arm raises it. -/
  | notModelled (mnemonic : String)
deriving DecidableEq, Repr

/-- The outcome of one step. -/
abbrev Result := Host.Outcome State Fault Refusal

/-- The state right after reset (10_state.md R54, 70_reset_and_hazards.md R210). The last three fields are the
model's own (notes/assumptions/5.md, DESIGN CHOICE). -/
def State.reset : State :=
  { bank := Bank.zeroed, variant := .linear, ready := false, busy := false, err := 0
    phase := .idle, stepNo := 0, keyReg := Vector.replicate 8 0, frameReg := 0
    klatch := 0, flatch := 0, abBits := 0, baBits := 0, sglBits := 0
    host := [], rdata := 0, draws := 0 }

end Sys2Proof.Machine
end

