-- ==== Sys2Proof/Machine/BitOps.lean ====
section
/-! DEFINITION. BitOps: parity and majority (40_bitops.md). -/

namespace Sys2Proof.Machine

/-- The XOR of bits 0 to k-1 of a word. -/
def parityBelow {n : Nat} (w : BitVec n) : Nat → Bool
  | 0 => false
  | k + 1 => parityBelow w k ^^ w.getLsbD k

/-- parity(w) = w[0] ^ w[1] ^ ... ^ w[n-1] (40_bitops.md R100). -/
def parity {n : Nat} (w : BitVec n) : Bool := parityBelow w n

/-- Whether a word counts as set: it is nonzero (40_bitops.md R101). -/
def isSet {n : Nat} (w : BitVec n) : Bool := w != 0

/-- majority(a, b, c): 1 iff at least two of the three words are nonzero (40_bitops.md R101). -/
def majority {l m n : Nat} (a : BitVec l) (b : BitVec m) (c : BitVec n) : Bool :=
  2 ≤ (isSet a).toNat + (isSet b).toNat + (isSet c).toNat

end Sys2Proof.Machine
end

