-- ==== Sys2Proof/WellFormed.lean ====
section
/-! DEFINITION. Which command fields are well formed (30_encoding.md R82-R84). Every term of `Instr` is well
formed: only SETUP carries a variant, and a variant has two values. So the checks stand on the raw fields of the
byte, where an ill-formed command can be written down. -/

namespace Sys2Proof

/-- RSV must be 000, whatever the OP (30_encoding.md R83). -/
def CommandFields.rsvClear (f : CommandFields) : Bool := f.rsv == 0

/-- OP values 0x4-0xF are reserved (30_encoding.md R81). -/
def CommandFields.opDefined (f : CommandFields) : Bool := f.op.toNat ≤ 3

/-- For every OP but SETUP's, V must be 0 (30_encoding.md R82). -/
def CommandFields.variantOnlyOnSetup (f : CommandFields) : Bool := f.v == 0 || f.op == 1

/-- The legal commands: exactly the bytes of 30_encoding.md R84 pass all three checks. -/
def CommandFields.wellFormed (f : CommandFields) : Bool :=
  f.rsvClear && f.opDefined && f.variantOnlyOnSetup

end Sys2Proof
end

