-- ==== Sys2Proof/Decode.lean ====
section
/-! DEFINITION. Decoding and encoding the command byte (30_encoding.md R80-R87). The decoder is total on every
byte and rejects the 251 illegal ones by name (R85). -/

namespace Sys2Proof

/-- Why a byte is no command: the three classes of 30_encoding.md R85. -/
inductive IllegalCommand where
  /-- RSV ≠ 0: 224 bytes. -/
  | reservedBitsSet
  /-- V = 1 with OP ≠ SETUP's and RSV = 0. -/
  | variantWithoutSetup
  /-- OP in 0x4-0xF with V = 0 and RSV = 0. -/
  | reservedOperation
deriving DecidableEq, Repr

/-- What a byte written to CMD is: a command or ILLEGAL (30_encoding.md R84). -/
inductive Decoded where
  | command (i : Instr)
  | illegal (why : IllegalCommand)
deriving DecidableEq, Repr

/-- The command, where the byte is one. -/
def Decoded.command? : Decoded → Option Instr
  | .command i => some i
  | .illegal _ => none

/-- V = 0 is Linear, V = 1 is NonLinear (30_encoding.md R82). -/
def variantOfBit (b : BitVec 1) : Variant := if b == 1 then .nonLinear else .linear

/-- The 1-bit value of a variant, as VARIANT holds it (10_state.md R34). -/
def variantBit : Variant → BitVec 1
  | .linear => 0
  | .nonLinear => 1

/-- The fields of a byte: RSV = v[7:5], V = v[4], OP = v[3:0] (30_encoding.md R80). -/
def fieldsOf (v : Byte) : CommandFields :=
  { rsv := v.extractLsb' 5 3, v := v.extractLsb' 4 1, op := v.extractLsb' 0 4 }

/-- Decoding, in the order of 30_encoding.md R84's pseudocode. -/
def decode (v : Byte) : Decoded :=
  let f := fieldsOf v
  if f.rsv != 0 then .illegal .reservedBitsSet
  else if f.op == 0x1 then .command (.setup (variantOfBit f.v))
  else if f.v == 1 then .illegal .variantWithoutSetup
  else if f.op == 0x0 then .command .nop
  else if f.op == 0x2 then .command .genDual
  else if f.op == 0x3 then .command .genSingle
  else .illegal .reservedOperation

/-- The fields of a command (30_encoding.md R81, R84). -/
def commandFields : Instr → CommandFields
  | .nop => { rsv := 0, v := 0, op := 0x0 }
  | .setup v => { rsv := 0, v := variantBit v, op := 0x1 }
  | .genDual => { rsv := 0, v := 0, op := 0x2 }
  | .genSingle => { rsv := 0, v := 0, op := 0x3 }

/-- The byte of a command: RSV, V and OP from the most significant bit down (30_encoding.md R80). -/
def encode (i : Instr) : Byte :=
  let f := commandFields i
  f.rsv ++ f.v ++ f.op

/-- The instruction the decoder reads from an instruction of `nbits` bits `w`. A command is one byte (30_encoding.md
R80, R87), so a number with a bit above bit 7 is no command (notes/assumptions/13.md). -/
def decodeTableWord (nbits w : Nat) : Option Instr :=
  let n := w % 2 ^ nbits
  if n < 256 then (decode (BitVec.ofNat 8 n)).command? else none

end Sys2Proof
end

