-- ==== Sys2Proof/Machine/Constants.lean ====
section
/-! DEFINITION. The constants of the CORE: fixed wiring (10_state.md R27-R33) and the implementation parameters
(00_scope.md R8). The bit positions are the spec's own, which it takes from general knowledge and checks against
its known vectors (93_implementation_defined.md Part A; notes/assumptions/7.md, PRESUMED, unsafe). -/

namespace Sys2Proof.Machine

/-- The masks, all ones over each register's width (10_state.md R27). -/
def mask1 : Word1 := 0x07FFFF
def mask2 : Word2 := 0x3FFFFF
def mask3 : Word3 := 0x7FFFFF
def mask4 : Word4 := 0x01FFFF

/-- The feedback taps, the same in both variants (10_state.md R28). PRESUMED, unsafe. -/
def taps1 : Word1 := 0x072000
def taps2 : Word2 := 0x300000
def taps3 : Word3 := 0x700080
def taps4 : Word4 := 0x010800

/-- R1_MID, R2_MID and R3_MID: the Linear control bits (10_state.md R29). PRESUMED, unsafe. -/
def mid1 : Word1 := 0x000100
def mid2 : Word2 := 0x000400
def mid3 : Word3 := 0x000400

/-- TAP1, TAP2 and TAP3: the NonLinear control bits, all of r4 (10_state.md R30). PRESUMED, unsafe. -/
def tap1 : Word4 := 0x000400
def tap2 : Word4 := 0x000008
def tap3 : Word4 := 0x000080

/-- The forced bits of the NonLinear loaded cycle (10_state.md R31). PRESUMED, unsafe. -/
def forced1 : Word1 := 0x008000
def forced2 : Word2 := 0x010000
def forced3 : Word3 := 0x040000
def forced4 : Word4 := 0x000400

/-- KEY_BITS (00_scope.md R8). -/
def keyBits : Nat := 64

/-- FRAME_BITS (00_scope.md R8). -/
def frameBits : Nat := 22

/-- MIX_CYCLES (00_scope.md R8). -/
def mixCycles : Nat := 100

/-- BURST_BITS (00_scope.md R8). -/
def burstBits : Nat := 114

/-- The offsets of the window that have a name (10_state.md section 7, 30_encoding.md R89). -/
def offsetCmd : Byte := 0x00
def offsetStatus : Byte := 0x01
def offsetErr : Byte := 0x02
def offsetFrame0 : Byte := 0x04
def offsetKey0 : Byte := 0x08
def offsetOutAB0 : Byte := 0x10
def offsetOutBA0 : Byte := 0x20
def offsetOutSgl0 : Byte := 0x30

/-- The number of a phase in 10_state.md R38's table. The host cannot see it (92_eei_decisions.md D36). -/
def phaseNumber : Phase → BitVec 3
  | .idle => 0
  | .key => 1
  | .frame => 2
  | .mix => 3
  | .prime => 4
  | .genAB => 5
  | .genBA => 6
  | .genS => 7

/-- How many values STEP takes in each phase (10_state.md R38's table). -/
def phaseSteps : Phase → Nat
  | .idle => 1
  | .key => keyBits
  | .frame => frameBits
  | .mix => mixCycles
  | .prime => 1
  | .genAB => burstBits
  | .genBA => burstBits
  | .genS => burstBits

end Sys2Proof.Machine
end

