-- ==== Sys2Proof/Machine/Flags.lean ====
section
/-! DEFINITION. The status and error flags: the codes of ERR, and the bytes the host reads at STATUS and ERR. -/

namespace Sys2Proof.Machine

/-- The outcomes of a CMD write (60_exceptions.md R191). Code 7 is reserved and has no name. -/
inductive ErrorCode where
  /-- Accepted, or NOP, or no CMD write since reset. -/
  | none
  /-- SETUP with a frame of 2^22 or more (R192). -/
  | invalidFrame
  /-- Reserved for the document's error of that name, never raised (R193). -/
  | invalidKeyLength
  /-- GEN_DUAL or GEN_SINGLE without a session (R194). -/
  | notReady
  /-- GEN_SINGLE in a NonLinear session (R195). -/
  | variantMismatch
  /-- Any CMD write while a command runs (R196). -/
  | busy
  /-- A byte that is no command (R197). -/
  | illegalCommand
deriving DecidableEq, Repr

/-- The value of ERR for each outcome (60_exceptions.md R191). -/
def errorBits : ErrorCode → BitVec 3
  | .none => 0
  | .invalidFrame => 1
  | .invalidKeyLength => 2
  | .notReady => 3
  | .variantMismatch => 4
  | .busy => 5
  | .illegalCommand => 6

/-- The byte at STATUS: 5'b00000, VARIANT, READY, BUSY from the top (10_state.md R45). -/
def statusByte (s : State) : Byte :=
  0#5 ++ variantBit s.variant ++ BitVec.ofBool s.ready ++ BitVec.ofBool s.busy

/-- The byte at ERR: 5'b00000 and the code (10_state.md R46). -/
def errByte (s : State) : Byte := 0#5 ++ s.err

end Sys2Proof.Machine
end

