-- ==== Sys2Proof/Machine/Operands.lean ====
section
/-! DEFINITION. The operands of the commands: the key and the frame as the registers hold them, and the bits in
the order setup consumes them. -/

namespace Sys2Proof.Machine

/-- The key a SETUP latches: {KEY_REG[7], KEY_REG[6], ..., KEY_REG[0]} (10_state.md R42; byte order by
90_conflicts.md C1). -/
def keyOperand (k : Vector Byte 8) : KeyWord :=
  k[7] ++ k[6] ++ k[5] ++ k[4] ++ k[3] ++ k[2] ++ k[1] ++ k[0]

/-- The frame a SETUP latches: FRAME_REG[21:0] (10_state.md R42). -/
def frameOperand (f : BitVec 24) : FrameWord := f.extractLsb' 0 22

/-- Whether the frame is below 2^22, that is FRAME_REG[23:22] = 0 (60_exceptions.md R192). -/
def frameInRange (f : BitVec 24) : Bool := f.extractLsb' 22 2 == 0

/-- Key bit i: k_i = KLATCH[i] (43_key_setup.md R132). -/
def keyBit (k : KeyWord) (i : Nat) : Bool := k.getLsbD i

/-- Frame bit i: f_i = FLATCH[i] (43_key_setup.md R134). -/
def frameBit (f : FrameWord) (i : Nat) : Bool := f.getLsbD i

end Sys2Proof.Machine
end

