-- ==== Sys2Proof/Machine/Ops.lean ====
section
/-! DEFINITION. The named operations on registers, cells and the sequencer's position, and the rejection of a
command, which is all this hardware has in place of an exception (60_exceptions.md R190, R203). -/

namespace Sys2Proof.Machine

/-- ERR <- c. -/
def State.setErr (c : ErrorCode) (s : State) : State := { s with err := errorBits c }

/-- The bank's registers <- b. -/
def State.setBank (b : Bank) (s : State) : State := { s with bank := b }

/-- STEP <- STEP + 1. -/
def State.nextStep (s : State) : State := { s with stepNo := s.stepNo + 1 }

/-- PHASE <- p; STEP <- 0. -/
def State.enterPhase (p : Phase) (s : State) : State := { s with phase := p, stepNo := 0 }

/-- PHASE <- IDLE; STEP <- 0; BUSY <- 0: the end of a command (44_keystream.md R153). -/
def State.endCommand (s : State) : State :=
  { s with phase := .idle, stepNo := 0, busy := false }

/-- SETUP_DONE (43_key_setup.md R138). -/
def State.setupDone (s : State) : State := { s.endCommand with ready := true }

/-- One edge of the step counter: the last value of STEP leads to `done`, any other counts on. -/
def State.countTo (last : Nat) (done : State → State) (s : State) : State :=
  if s.stepNo.toNat = last then done s else s.nextStep

/-- raise Error(c): ERR <- c, the command is rejected and starts nothing (60_exceptions.md R190). Nothing is saved
and there is no return from it. -/
def State.raiseError (c : ErrorCode) (s : State) : Result := .next (s.setErr c)

/-- Write byte j of FRAME_REG (10_state.md R48); j is 0, 1 or 2. -/
def setFrameByte (f : BitVec 24) (j : Nat) (v : Byte) : BitVec 24 :=
  match j with
  | 0 => f.extractLsb' 8 16 ++ v
  | 1 => f.extractLsb' 16 8 ++ v ++ f.extractLsb' 0 8
  | _ => v ++ f.extractLsb' 0 16

/-- FRAME_REG[8j+7:8j] <- v (10_state.md R48). -/
def State.storeFrame (j : Nat) (v : Byte) (s : State) : State :=
  { s with frameReg := setFrameByte s.frameReg j v }

/-- KEY_REG[i] <- v (10_state.md R49). -/
def State.storeKey (i : Nat) (v : Byte) (s : State) : State :=
  { s with keyReg := s.keyReg.setIfInBounds i v }

/-- Cell i of a buffer (10_state.md R43); there is none from 114 on, which reads 0 (44_keystream.md R154). -/
def cell (bits : Burst) (i : Nat) : Bool := bits.getLsbD i

/-- Cell i of a buffer <- v. -/
def storeCell (bits : Burst) (i : Nat) (v : Bool) : Burst :=
  if v then bits ||| (1#114 <<< i) else bits &&& ~~~(1#114 <<< i)

/-- PACK(bits, j), MSB-first (44_keystream.md R154): bit 8j+b of the burst at bit 7-b of the byte, 0 beyond
bit 113. -/
def pack (bits : Burst) (j : Nat) : Byte :=
  let c (b : Nat) : BitVec 1 :=
    BitVec.ofBool (if 8 * j + b ≤ 113 then cell bits (8 * j + b) else false)
  c 0 ++ c 1 ++ c 2 ++ c 3 ++ c 4 ++ c 5 ++ c 6 ++ c 7

end Sys2Proof.Machine
end

