-- ==== Sys2Proof/Machine/ClockControl.lean ====
section
/-! DEFINITION. The clock primitive (41_register_clock.md) and CLOCK, one LFSR cycle under majority-vote clock
control (42_clock_control.md). Within one CLOCK every read is of the start-of-cycle values (R122). -/

namespace Sys2Proof.Machine

/-- clock_one(reg, mask, taps, forced), in the document's step order (41_register_clock.md R110). -/
def clockOne {w : Nat} (reg mask taps forced : BitVec w) : BitVec w :=
  let t := reg &&& taps
  let feedback := parity t
  let shifted := (reg <<< 1) &&& mask
  let r := shifted ||| (BitVec.ofBool feedback).setWidth w
  r ||| forced

/-- clk1 to clk4 (41_register_clock.md R111). -/
def clk1 (r f : Word1) : Word1 := clockOne r mask1 taps1 f
def clk2 (r f : Word2) : Word2 := clockOne r mask2 taps2 f
def clk3 (r f : Word3) : Word3 := clockOne r mask3 taps3 f
def clk4 (r f : Word4) : Word4 := clockOne r mask4 taps4 f

/-- The three control bits c1, c2 and c3: of r1, r2 and r3 in the Linear variant (42_clock_control.md R120), of r4
in the NonLinear one (R121). -/
def controlBits (v : Variant) (b : Bank) : Bool × Bool × Bool :=
  match v with
  | .linear => (isSet (b.r1 &&& mid1), isSet (b.r2 &&& mid2), isSet (b.r3 &&& mid3))
  | .nonLinear => (isSet (b.r4 &&& tap1), isSet (b.r4 &&& tap2), isSet (b.r4 &&& tap3))

/-- maj of the control bits. -/
def controlMajority (v : Variant) (b : Bank) : Bool :=
  let (c1, c2, c3) := controlBits v b
  majority (BitVec.ofBool c1) (BitVec.ofBool c2) (BitVec.ofBool c3)

/-- Which of r1, r2 and r3 advance: all with force_all, else those whose control bit agrees with the majority
(42_clock_control.md R120, R121). -/
def enables (v : Variant) (forceAll : Bool) (b : Bank) : Bool × Bool × Bool :=
  let (c1, c2, c3) := controlBits v b
  let maj := controlMajority v b
  (forceAll || c1 == maj, forceAll || c2 == maj, forceAll || c3 == maj)

/-- CLOCK when VARIANT = 0; `loaded` has no effect, r4 and DELAY are unchanged (42_clock_control.md R120). -/
def clockLinear (forceAll _loaded : Bool) (b : Bank) : Bank :=
  let (e1, e2, e3) := enables .linear forceAll b
  { b with
    r1 := if e1 then clk1 b.r1 0 else b.r1
    r2 := if e2 then clk2 b.r2 0 else b.r2
    r3 := if e3 then clk3 b.r3 0 else b.r3 }

/-- CLOCK when VARIANT = 1; r4 is clocked always, DELAY is unchanged (42_clock_control.md R121). -/
def clockNonLinear (forceAll loaded : Bool) (b : Bank) : Bank :=
  let (e1, e2, e3) := enables .nonLinear forceAll b
  { b with
    r1 := if e1 then clk1 b.r1 (if loaded then forced1 else 0) else b.r1
    r2 := if e2 then clk2 b.r2 (if loaded then forced2 else 0) else b.r2
    r3 := if e3 then clk3 b.r3 (if loaded then forced3 else 0) else b.r3
    r4 := clk4 b.r4 (if loaded then forced4 else 0) }

/-- CLOCK(force_all, loaded) of the variant (42_clock_control.md R120, R121). -/
def clock (v : Variant) (forceAll loaded : Bool) (b : Bank) : Bank :=
  match v with
  | .linear => clockLinear forceAll loaded b
  | .nonLinear => clockNonLinear forceAll loaded b

end Sys2Proof.Machine
end

