-- ==== Sys2Proof/Machine/Keystream.lean ====
section
/-! DEFINITION. The output-bit selector, the generation step and the burst micro-steps (44_keystream.md). -/

namespace Sys2Proof.Machine

/-- The XOR of the three top bits, r1[18] ^ r2[21] ^ r3[22] (44_keystream.md R150; 10_state.md R32). -/
def topBits (b : Bank) : Bool := b.r1.getLsbD 18 ^^ b.r2.getLsbD 21 ^^ b.r3.getLsbD 22

/-- The majority terms M1, M2 and M3 (10_state.md R33, 44_keystream.md R151). PRESUMED, unsafe
(notes/assumptions/7.md). -/
def majorityTerm1 (b : Bank) : Bool :=
  majority (b.r1 &&& 0x8000) (~~~b.r1 &&& 0x4000) (b.r1 &&& 0x1000)
def majorityTerm2 (b : Bank) : Bool :=
  majority (~~~b.r2 &&& 0x10000) (b.r2 &&& 0x2000) (b.r2 &&& 0x0200)
def majorityTerm3 (b : Bank) : Bool :=
  majority (b.r3 &&& 0x40000) (b.r3 &&& 0x10000) (~~~b.r3 &&& 0x2000)

/-- NLV(): the new internal value (44_keystream.md R151). -/
def nlv (b : Bank) : Bool :=
  topBits b ^^ majorityTerm1 b ^^ majorityTerm2 b ^^ majorityTerm3 b

/-- DELAY <- NLV(): what the NonLinear EMIT and the priming step write (44_keystream.md R151, 43_key_setup.md R137). -/
def storeDelay (b : Bank) : Bank := { b with delay := nlv b }

/-- EMIT(): the output bit and the bank after it (44_keystream.md R150, R151). -/
def emit (v : Variant) (b : Bank) : Bool × Bank :=
  match v with
  | .linear => (topBits b, b)
  | .nonLinear => (b.delay, storeDelay b)

/-- GEN_STEP(): one normal CLOCK, then one EMIT of what it produced (44_keystream.md R152). -/
def genStep (v : Variant) (b : Bank) : Bool × Bank := emit v (clock v false false b)

/-- GEN_AB_STEP(i), i = STEP (44_keystream.md R153). -/
def State.genABStep (s : State) : State :=
  let (bit, b) := genStep s.variant s.bank
  ({ s with bank := b, abBits := storeCell s.abBits s.stepNo.toNat bit }).countTo 113 (State.enterPhase .genBA)

/-- GEN_BA_STEP(i), i = STEP (44_keystream.md R153). -/
def State.genBAStep (s : State) : State :=
  let (bit, b) := genStep s.variant s.bank
  ({ s with bank := b, baBits := storeCell s.baBits s.stepNo.toNat bit }).countTo 113 State.endCommand

/-- GEN_S_STEP(i), i = STEP (44_keystream.md R153). -/
def State.genSStep (s : State) : State :=
  let (bit, b) := genStep s.variant s.bank
  ({ s with bank := b, sglBits := storeCell s.sglBits s.stepNo.toNat bit }).countTo 113 State.endCommand

end Sys2Proof.Machine
end

