-- ==== Sys2Proof/Machine/KeySetup.lean ====
section
/-! DEFINITION. The setup micro-steps (43_key_setup.md). -/

namespace Sys2Proof.Machine

/-- XOR a key or frame bit, zero-extended, into r1, r2, r3 and (NonLinear) r4 (43_key_setup.md R133, R135; the
zero-extension by 90_conflicts.md C4). -/
def xorBit (v : Variant) (k : Bool) (b : Bank) : Bank :=
  { b with
    r1 := b.r1 ^^^ (BitVec.ofBool k).setWidth 19
    r2 := b.r2 ^^^ (BitVec.ofBool k).setWidth 22
    r3 := b.r3 ^^^ (BitVec.ofBool k).setWidth 23
    r4 := match v with
      | .linear => b.r4
      | .nonLinear => b.r4 ^^^ (BitVec.ofBool k).setWidth 17 }

/-- What KEY_STEP(i) does to the bank: CLOCK(1, 0), then the XOR of key bit i (43_key_setup.md R133). -/
def keyStepBank (v : Variant) (k : KeyWord) (i : Nat) (b : Bank) : Bank :=
  xorBit v (keyBit k i) (clock v true false b)

/-- What FRAME_STEP(i) does to the bank: CLOCK with loaded on the 22nd bit only, then the XOR of frame bit i
(43_key_setup.md R135). -/
def frameStepBank (v : Variant) (f : FrameWord) (i : Nat) (b : Bank) : Bank :=
  xorBit v (frameBit f i) (clock v true (i == 21) b)

/-- KEY_STEP(i), i = STEP (43_key_setup.md R133). -/
def State.keyStep (s : State) : State :=
  (s.setBank (keyStepBank s.variant s.klatch s.stepNo.toNat s.bank)).countTo 63 (State.enterPhase .frame)

/-- FRAME_STEP(i), i = STEP (43_key_setup.md R135). -/
def State.frameStep (s : State) : State :=
  (s.setBank (frameStepBank s.variant s.flatch s.stepNo.toNat s.bank)).countTo 21 (State.enterPhase .mix)

/-- What follows the last MIX step: PRIME in the NonLinear variant, else the end of setup (43_key_setup.md R136). -/
def State.mixDone (s : State) : State :=
  match s.variant with
  | .nonLinear => s.enterPhase .prime
  | .linear => s.setupDone

/-- MIX_STEP(i), i = STEP: CLOCK(0, 0), no output (43_key_setup.md R136). -/
def State.mixStep (s : State) : State :=
  (s.setBank (clock s.variant false false s.bank)).countTo 99 State.mixDone

/-- PRIME_STEP(): DELAY <- NLV() with no CLOCK, then SETUP_DONE (43_key_setup.md R137, 90_conflicts.md C3). -/
def State.primeStep (s : State) : State := (s.setBank (storeDelay s.bank)).setupDone

end Sys2Proof.Machine
end

