-- ==== Sys2Proof/Machine/Commands.lean ====
section
/-! DEFINITION. The sequencer's micro-step and the commands (45_commands.md): what a CMD write of each command does
at its own edge. The micro-steps that follow are the machine's own steps (70_reset_and_hazards.md R222). -/

namespace Sys2Proof.Machine

/-- The next micro-step of the running command, by PHASE (10_state.md R37, R38). In IDLE there is none. -/
def State.microStep (s : State) : State :=
  match s.phase with
  | .idle => s
  | .key => s.keyStep
  | .frame => s.frameStep
  | .mix => s.mixStep
  | .prime => s.primeStep
  | .genAB => s.genABStep
  | .genBA => s.genBAStep
  | .genS => s.genSStep

/-- The sequencer's part of one edge: a micro-step exactly while BUSY = 1 (10_state.md R37). -/
def State.sequencerEdge (s : State) : State := if s.busy then s.microStep else s

/-- The edge of a CMD write (45_commands.md R170): while BUSY = 1 the write is dropped with ERR <- 5 and the running
command's micro-step runs; while BUSY = 0 the acceptance logic has the edge to itself. -/
def State.onCommand (accept : State → Result) (s : State) : Result :=
  if s.busy then s.microStep.raiseError .busy else accept s

/-- NOP_EXEC() (45_commands.md R172). -/
def State.nopExec (s : State) : Result := .next (s.setErr .none)

/-- SETUP_ACCEPT(var) (45_commands.md R173). -/
def State.setupAccept (var : Variant) (s : State) : Result :=
  if frameInRange s.frameReg then
    .next
      { s with
        err := errorBits .none
        variant := var
        ready := false
        busy := true
        klatch := keyOperand s.keyReg
        flatch := frameOperand s.frameReg
        bank := Bank.zeroed
        abBits := 0
        baBits := 0
        sglBits := 0
        phase := .key
        stepNo := 0 }
  else
    ({ s with ready := false }).raiseError .invalidFrame

/-- GEN_DUAL_ACCEPT() (45_commands.md R175). -/
def State.genDualAccept (s : State) : Result :=
  if s.ready then
    .next
      { s with
        err := errorBits .none
        busy := true
        abBits := 0
        baBits := 0
        phase := .genAB
        stepNo := 0 }
  else
    s.raiseError .notReady

/-- GEN_SINGLE_ACCEPT() (45_commands.md R177). -/
def State.genSingleAccept (s : State) : Result :=
  if s.ready then
    match s.variant with
    | .nonLinear => s.raiseError .variantMismatch
    | .linear =>
      .next
        { s with
          err := errorBits .none
          busy := true
          sglBits := 0
          phase := .genS
          stepNo := 0 }
  else
    s.raiseError .notReady

/-- The edge of a CMD write of NOP (45_commands.md R170, R172). -/
def execNop (s : State) : Result := s.onCommand State.nopExec

/-- The edge of a CMD write of SETUP (45_commands.md R170, R173). -/
def execSetup (v : Variant) (s : State) : Result := s.onCommand (State.setupAccept v)

/-- The edge of a CMD write of GEN_DUAL (45_commands.md R170, R175). -/
def execGenDual (s : State) : Result := s.onCommand State.genDualAccept

/-- The edge of a CMD write of GEN_SINGLE (45_commands.md R170, R177). -/
def execGenSingle (s : State) : Result := s.onCommand State.genSingleAccept

/-- The edge of a CMD write of a byte that is no command (45_commands.md R170, 60_exceptions.md R197, R198). -/
def illegalWrite (s : State) : Result := s.onCommand (State.raiseError .illegalCommand)

end Sys2Proof.Machine
end

