-- ==== Sys2Proof/Machine/Dispatch.lean ====
section
/-! DEFINITION. The dispatch of a command to its meaning, one arm for each constructor of `Instr`. -/

namespace Sys2Proof.Machine

def exec (i : Instr) (s : State) : Host.Outcome State Fault Refusal :=
  match i with
  | .nop => Sys2Proof.Machine.execNop s
  | .setup v => Sys2Proof.Machine.execSetup v s
  | .genDual => Sys2Proof.Machine.execGenDual s
  | .genSingle => Sys2Proof.Machine.execGenSingle s

end Sys2Proof.Machine
end

