-- ==== Sys2Proof/Machine/Port.lean ====
section
/-! DEFINITION. The host port: reads and writes of the window, the read data, the host's next cycle, and one clock
edge (20_memory.md, 70_reset_and_hazards.md). -/

namespace Sys2Proof.Machine

/-- The byte at FRAMEj: FRAME_REG[8j+7:8j] (10_state.md R48). -/
def frameByte (f : BitVec 24) (j : Nat) : Byte := f.extractLsb' (8 * j) 8

/-- The byte a read of offset `a` returns, by the window's map (10_state.md R45-R52). CMD, KEY0-7 and the reserved
offsets read 0. -/
def windowRead (s : State) (a : Byte) : Byte :=
  let n := a.toNat
  if n = 0x01 then statusByte s
  else if n = 0x02 then errByte s
  else if 0x04 ≤ n ∧ n ≤ 0x06 then frameByte s.frameReg (n - 0x04)
  else if 0x10 ≤ n ∧ n ≤ 0x1E then pack s.abBits (n - 0x10)
  else if 0x20 ≤ n ∧ n ≤ 0x2E then pack s.baBits (n - 0x20)
  else if 0x30 ≤ n ∧ n ≤ 0xA1 then (BitVec.ofBool (cell s.sglBits (n - 0x30))).setWidth 8
  else 0

/-- A write of `v` to an offset other than CMD: FRAME0-2 and KEY0-7 store the byte whatever BUSY is, every other
offset ignores it (10_state.md R48, R49, R52; 20_memory.md R70). -/
def windowStore (a v : Byte) (s : State) : State :=
  let n := a.toNat
  if 0x04 ≤ n ∧ n ≤ 0x06 then s.storeFrame (n - 0x04) v
  else if 0x08 ≤ n ∧ n ≤ 0x0F then s.storeKey (n - 0x08) v
  else s

/-- A write of `v` to CMD (45_commands.md R170). -/
def commandWrite (v : Byte) (s : State) : Result :=
  match decode v with
  | .command i => exec i s
  | .illegal _ => illegalWrite s

/-- Draw a free value of `rdata` (notes/assumptions/4.md). -/
def State.drawRdata (free : Nat → Byte) (s : State) : State :=
  { s with rdata := free s.draws, draws := s.draws + 1 }

/-- The value `rdata` shows in a cycle, from the state before its edge: the register read (20_memory.md R62,
70_reset_and_hazards.md R225), or a free value during reset (R215), with both strobes (R224) or with re = 0
(R225). -/
def State.portRead (p : Pins) (s : State) : State :=
  if p.rst then s.drawRdata Config.resetRdata
  else if p.re && p.we then s.drawRdata Config.bothStrobesRdata
  else if p.re then { s with rdata := windowRead s p.addr }
  else s.drawRdata Config.idleRdata

/-- The pins of a read of offset `a` (20_memory.md R62). -/
def readPins (a : Byte) : Pins := { rst := false, we := false, re := true, addr := a, wdata := 0 }

/-- The pins of a write of `v` to offset `a` (20_memory.md R62). -/
def writePins (a v : Byte) : Pins := { rst := false, we := true, re := false, addr := a, wdata := v }

/-- The pins of a cycle with no access (20_memory.md R62). -/
def idlePins : Pins := { rst := false, we := false, re := false, addr := 0, wdata := 0 }

/-- The pins of a cycle with rst = 1 and no access (70_reset_and_hazards.md R210). -/
def resetPins : Pins := { rst := true, we := false, re := false, addr := 0, wdata := 0 }

/-- The pins the host drives for an action: WAIT reads STATUS (30_encoding.md R90). -/
def actionPins : HostAction → Pins
  | .cycle p => p
  | .wait => readPins offsetStatus

/-- The pins of the coming cycle; a host with nothing more to do is idle (notes/assumptions/2.md). -/
def State.pins (s : State) : Pins :=
  match s.host with
  | [] => idlePins
  | a :: _ => actionPins a

/-- The host goes on to its next action; a WAIT stays while bit 0 of the value read is 1 (30_encoding.md R90). -/
def State.advanceHost (s : State) : State :=
  match s.host with
  | [] => s
  | .cycle _ :: rest => { s with host := rest }
  | .wait :: rest => if s.rdata.getLsbD 0 then s else { s with host := rest }

/-- The cycle up to its edge: the read data is shown, and the host has taken its action. -/
def State.sampled (s : State) : State := (s.portRead s.pins).advanceHost

/-- An edge with rst = 1: every state element takes its reset value, whatever it was (70_reset_and_hazards.md R210,
R213). The model's own fields are no element of the CORE (notes/assumptions/5.md). -/
def State.resetEdge (s : State) : State :=
  { State.reset with host := s.host, rdata := s.rdata, draws := s.draws }

/-- An edge without rst and without a CMD write: the micro-step if BUSY = 1, and the host's write if there is one
(20_memory.md R73, 70_reset_and_hazards.md R222). -/
def plainEdge (p : Pins) (s : State) : State :=
  if p.we then windowStore p.addr p.wdata s.sequencerEdge else s.sequencerEdge

/-- One rising edge of `clk` with the pins `p`, in the priority of 70_reset_and_hazards.md R222. -/
def clockEdge (p : Pins) (s : State) : Result :=
  if p.rst then .next s.resetEdge
  else if p.we && p.addr == offsetCmd then commandWrite p.wdata s
  else .next (plainEdge p s)

end Sys2Proof.Machine
end

