-- ==== Sys2Proof/Machine/Step.lean ====
section
/-! DEFINITION. The step: one clock cycle of the host and one rising edge of `clk` (notes/assumptions/1.md). -/

namespace Sys2Proof.Machine

/-- One step: `rdata` shows the value from before the edge, the host goes on, and the edge happens with the pins the
host drove (70_reset_and_hazards.md R222, R225). -/
def step (s : State) : Host.Outcome State Fault Refusal := clockEdge s.pins s.sampled

/-- The state in which the host is about to write the command `w` of `nbits` bits to CMD: a command reaches the CORE in
no other way (20_memory.md R75; notes/assumptions/3.md). -/
def State.withFetchWord (s : State) (nbits w : Nat) : State :=
  { s with host := .cycle (writePins offsetCmd (BitVec.ofNat 8 (w % 2 ^ nbits))) :: s.host }

end Sys2Proof.Machine
end

