-- ==== Sys2Proof/Machine/Atomic.lean ====
section
/-! DEFINITION. The commands as atomic functions: SETUP as one function (43_key_setup.md R141), the keystream as one
sequence (44_keystream.md R157), and each accepted command as one transition (45_commands.md R189). -/

namespace Sys2Proof.Machine

/-- The first n KEY steps, without PHASE and STEP. -/
def loadKeyBits (v : Variant) (k : KeyWord) : Nat → Bank → Bank
  | 0, b => b
  | n + 1, b => keyStepBank v k n (loadKeyBits v k n b)

/-- The first n FRAME steps, without PHASE and STEP. -/
def loadFrameBits (v : Variant) (f : FrameWord) : Nat → Bank → Bank
  | 0, b => b
  | n + 1, b => frameStepBank v f n (loadFrameBits v f n b)

/-- n normal CLOCKs. -/
def mixFor (v : Variant) : Nat → Bank → Bank
  | 0, b => b
  | n + 1, b => clock v false false (mixFor v n b)

/-- The bank SETUP_FN leaves (43_key_setup.md R141). -/
def setupBank (k : KeyWord) (f : FrameWord) (v : Variant) : Bank :=
  let b := mixFor v mixCycles (loadFrameBits v f frameBits (loadKeyBits v k keyBits Bank.zeroed))
  match v with
  | .linear => b
  | .nonLinear => storeDelay b

/-- The bank after n generation steps. -/
def bankAfter (v : Variant) : Nat → Bank → Bank
  | 0, b => b
  | n + 1, b => (genStep v (bankAfter v n b)).2

/-- Bit i of the keystream that starts at bank b: the bit of generation step i (44_keystream.md R157). -/
def streamBit (v : Variant) (b : Bank) (i : Nat) : Bool := (genStep v (bankAfter v i b)).1

/-- A buffer whose first n cells were filled from f, the rest 0. -/
def fillBurst (f : Nat → Bool) : Nat → Burst
  | 0 => 0
  | n + 1 => storeCell (fillBurst f n) n (f n)

/-- An accepted SETUP as one transition (45_commands.md R189). -/
def State.setupAtomic (v : Variant) (s : State) : State :=
  { s with
    err := errorBits .none
    variant := v
    ready := true
    busy := false
    klatch := keyOperand s.keyReg
    flatch := frameOperand s.frameReg
    bank := setupBank (keyOperand s.keyReg) (frameOperand s.frameReg) v
    abBits := 0
    baBits := 0
    sglBits := 0
    phase := .idle
    stepNo := 0 }

/-- An accepted GEN_DUAL as one transition: 228 generation steps, the first 114 bits A→B, the next 114 B→A
(45_commands.md R176, R189). -/
def State.genDualAtomic (s : State) : State :=
  { s with
    err := errorBits .none
    busy := false
    bank := bankAfter s.variant 228 s.bank
    abBits := fillBurst (streamBit s.variant s.bank) 114
    baBits := fillBurst (fun i => streamBit s.variant s.bank (114 + i)) 114
    phase := .idle
    stepNo := 0 }

/-- An accepted GEN_SINGLE as one transition: 114 generation steps (45_commands.md R178, R189). -/
def State.genSingleAtomic (s : State) : State :=
  { s with
    err := errorBits .none
    busy := false
    bank := bankAfter s.variant 114 s.bank
    sglBits := fillBurst (streamBit s.variant s.bank) 114
    phase := .idle
    stepNo := 0 }

end Sys2Proof.Machine
end

