-- ==== Sys2Proof/Machine/HostProgram.lean ====
section
/-! DEFINITION. Host programs: the lines of 30_encoding.md R89, the pseudo-instructions of R90 and their exact
expansions, and a reset cycle, which is no bus transaction (95_test_vectors.md P7). -/

namespace Sys2Proof.Machine

/-- One line of a host program (30_encoding.md R89, R90). -/
inductive HostLine where
  /-- `WR off, byte`. -/
  | wr (off v : Byte)
  /-- `RD off`, the value discarded. -/
  | rd (off : Byte)
  /-- `RD off => byte`: the same read, with the value the rules give. -/
  | rdExpect (off v : Byte)
  /-- `NOP`. -/
  | nop
  /-- `SETUP.L`. -/
  | setupL
  /-- `SETUP.N`. -/
  | setupN
  /-- `GEN.DUAL`. -/
  | genDual
  /-- `GEN.SINGLE`. -/
  | genSingle
  /-- `LDKEY b0, ..., b7`. -/
  | ldKey (b : Vector Byte 8)
  /-- `LDFRAME f`, f of up to 24 bits. -/
  | ldFrame (f : BitVec 24)
  /-- `WAIT`. -/
  | wait
  /-- `RDAB`. -/
  | rdAB
  /-- `RDBA`. -/
  | rdBA
  /-- `RDSGL`. -/
  | rdSgl
  /-- A cycle without an access. -/
  | idle
  /-- A cycle with rst = 1. -/
  | resetCycle
deriving DecidableEq, Repr

/-- Reads of `n` offsets from `a` on, ascending. -/
def readRange (a : Byte) : Nat → List HostAction
  | 0 => []
  | n + 1 => .cycle (readPins a) :: readRange (a + 1) n

/-- What the host does for a line (30_encoding.md R89, R90). -/
def expandLine : HostLine → List HostAction
  | .wr off v => [.cycle (writePins off v)]
  | .rd off => [.cycle (readPins off)]
  | .rdExpect off _ => [.cycle (readPins off)]
  | .nop => [.cycle (writePins offsetCmd 0x00)]
  | .setupL => [.cycle (writePins offsetCmd 0x01)]
  | .setupN => [.cycle (writePins offsetCmd 0x11)]
  | .genDual => [.cycle (writePins offsetCmd 0x02)]
  | .genSingle => [.cycle (writePins offsetCmd 0x03)]
  | .ldKey b =>
    [.cycle (writePins 0x08 b[0]), .cycle (writePins 0x09 b[1]), .cycle (writePins 0x0A b[2]),
      .cycle (writePins 0x0B b[3]), .cycle (writePins 0x0C b[4]), .cycle (writePins 0x0D b[5]),
      .cycle (writePins 0x0E b[6]), .cycle (writePins 0x0F b[7])]
  | .ldFrame f =>
    [.cycle (writePins 0x04 (f.extractLsb' 0 8)), .cycle (writePins 0x05 (f.extractLsb' 8 8)),
      .cycle (writePins 0x06 (f.extractLsb' 16 8))]
  | .wait => [.wait]
  | .rdAB => readRange offsetOutAB0 15
  | .rdBA => readRange offsetOutBA0 15
  | .rdSgl => readRange offsetOutSgl0 114
  | .idle => [.cycle idlePins]
  | .resetCycle => [.cycle resetPins]

/-- The actions of a program. -/
def expandProgram (p : List HostLine) : List HostAction := p.flatMap expandLine

/-- The state with a host that is about to run a program, then what it was to do before. -/
def State.withProgram (s : State) (p : List HostLine) : State :=
  { s with host := expandProgram p ++ s.host }

end Sys2Proof.Machine
end

