-- ==== Sys2Proof/Safety.lean ====
section
/-! DEFINITION. Runs, the invariant of the CORE's state, and the views of a state that claims compare. -/

namespace Sys2Proof.Machine

/-- n steps, stopping at the first outcome that is no next state. -/
def runSteps : Nat → State → Result
  | 0, s => .next s
  | n + 1, s =>
    match step s with
    | .next t => runSteps n t
    | .fault r => .fault r
    | .refused r => .refused r

/-- n micro-steps of the sequencer alone, with no host. -/
def microRun : Nat → State → State
  | 0, s => s
  | n + 1, s => microRun n s.microStep

/-- Whether an action of the host asserts rst. -/
def assertsReset (a : HostAction) : Bool := (actionPins a).rst

/-- Among the host's next n actions none asserts rst. A step takes at most one action, so n steps make no reset. -/
def noResetFor (n : Nat) (host : List HostAction) : Bool := (host.take n).all fun a => !assertsReset a

/-- The number of micro-steps of an accepted command (70_reset_and_hazards.md R223). -/
def busyTime : Instr → Nat
  | .nop => 0
  | .setup .linear => 186
  | .setup .nonLinear => 187
  | .genDual => 228
  | .genSingle => 114

/-- What holds of every state a run from reset reaches: one field for each rule. -/
structure State.Inv (s : State) : Prop where
  /-- BUSY = 1 exactly when PHASE ≠ IDLE (10_state.md R38). -/
  busy_eq : s.busy = (s.phase != .idle)
  /-- STEP stays in its range (10_state.md R38). -/
  step_lt : s.stepNo.toNat < phaseSteps s.phase
  /-- PRIME exists in the NonLinear variant only (43_key_setup.md R137). -/
  prime_nonLinear : s.phase = .prime → s.variant = .nonLinear
  /-- GEN_SINGLE runs in the Linear variant only (45_commands.md R177). -/
  genS_linear : s.phase = .genS → s.variant = .linear
  /-- A running SETUP has READY = 0 (43_key_setup.md R139). -/
  setup_notReady : s.phase ∈ [.key, .frame, .mix, .prime] → s.ready = false
  /-- READY stays 1 while a burst is generated (44_keystream.md R153). -/
  gen_ready : s.phase ∈ [.genAB, .genBA, .genS] → s.ready = true
  /-- In the Linear variant r4 and DELAY hold 0 (10_state.md R24, R25). -/
  linear_r4_delay : s.variant = .linear → s.bank.r4 = 0 ∧ s.bank.delay = false
  /-- DELAY is 0 from the zeroing up to the priming (43_key_setup.md R136, R137). -/
  setup_delay : s.phase ∈ [.key, .frame, .mix, .prime] → s.bank.delay = false
  /-- Codes 2 and 7 are never written (60_exceptions.md R191, R193). -/
  err_legal : s.err ≠ 2 ∧ s.err ≠ 7
  /-- During SETUP every buffer is clear (10_state.md R43, R44). -/
  setup_buffers : s.phase ∈ [.key, .frame, .mix, .prime] → s.abBits = 0 ∧ s.baBits = 0 ∧ s.sglBits = 0
  /-- The cells a burst has not reached hold 0 (70_reset_and_hazards.md R218). -/
  genAB_cells : s.phase = .genAB → s.baBits = 0 ∧ ∀ i, s.stepNo.toNat ≤ i → cell s.abBits i = false
  genBA_cells : s.phase = .genBA → ∀ i, s.stepNo.toNat ≤ i → cell s.baBits i = false
  genS_cells : s.phase = .genS → ∀ i, s.stepNo.toNat ≤ i → cell s.sglBits i = false

/-- The elements of the CORE agree (10_state.md R20): everything but the model's own fields. -/
def SameCore (s t : State) : Prop :=
  { s with host := [], rdata := 0, draws := 0 } = { t with host := [], rdata := 0, draws := 0 }

/-- The elements a running command reads and writes agree: all but ERR, KEY_REG and FRAME_REG. -/
def SameCommand (s t : State) : Prop :=
  SameCore { s with err := 0, keyReg := Vector.replicate 8 0, frameReg := 0 }
    { t with err := 0, keyReg := Vector.replicate 8 0, frameReg := 0 }

/-- The elements the host can read agree (10_state.md R45-R51): all but the hidden state of R53 and KEY_REG. -/
def SameVisible (s t : State) : Prop :=
  s.variant = t.variant ∧ s.ready = t.ready ∧ s.busy = t.busy ∧ s.err = t.err ∧
  s.frameReg = t.frameReg ∧ s.abBits = t.abBits ∧ s.baBits = t.baBits ∧ s.sglBits = t.sglBits

end Sys2Proof.Machine
end

