-- ==== Sys2Proof/Certificates/Slice0/Obligations.lean ====
section
/-! DEFINITION. The statements for the provers. Each docstring names the rule of spec/ it formalises. -/

open Sys2Proof Sys2Proof.Machine

/-! ### Encoding -/

/-- 30_encoding.md R80, R84: decoding and encoding are inverse to each other, on every byte and every command, and
the bytes that decode are the well-formed ones. -/
def Obligations.DecodeEncodeAgree : Prop :=
  (∀ v i, decode v = .command i ↔ encode i = v) ∧
  (∀ v, (decode v).command?.isSome = (fieldsOf v).wellFormed)

/-- 30_encoding.md R84's table: the five legal bytes, as the host's table numbers them. -/
def Obligations.CommandBytesDecode : Prop :=
  decodeTableWord 8 0x00 = some .nop ∧
  decodeTableWord 8 0x01 = some (.setup .linear) ∧
  decodeTableWord 8 0x11 = some (.setup .nonLinear) ∧
  decodeTableWord 8 0x02 = some .genDual ∧
  decodeTableWord 8 0x03 = some .genSingle ∧
  decodeTableWord 8 0x12 = none

/-- 30_encoding.md R85: which bytes are illegal and how many of each class, and what writing one does, while BUSY = 0
and while BUSY = 1. -/
def Obligations.IllegalBytesRejected : Prop :=
  (∀ v : Byte, (decode v).command? = none ↔
    (fieldsOf v).rsv ≠ 0 ∨ (4 ≤ (fieldsOf v).op.toNat ∧ (fieldsOf v).rsv = 0) ∨ v = 0x10 ∨ v = 0x12 ∨ v = 0x13) ∧
  ((List.range 256).countP fun n => (decode (BitVec.ofNat 8 n)).command?.isNone) = 251 ∧
  ((List.range 256).countP fun n => (fieldsOf (BitVec.ofNat 8 n)).rsv != 0) = 224 ∧
  ((List.range 256).countP fun n =>
    decide (4 ≤ (fieldsOf (BitVec.ofNat 8 n)).op.toNat) && (fieldsOf (BitVec.ofNat 8 n)).rsv == 0) = 24 ∧
  (∀ (v : Byte) (s : State), (decode v).command? = none → s.busy = false → commandWrite v s = .next { s with err := 6 }) ∧
  (∀ (v : Byte) (s : State), s.busy = true → commandWrite v s = .next { s.microStep with err := 5 })

/-! ### Steps and commands -/

/-- 20_memory.md R62, R75 and 45_commands.md R170: in a cycle that writes a byte to CMD, legal or not, the step is the
CMD write of that byte, and for a byte that decodes to a command it is `exec` of that command, on the state in which
the cycle's `rdata` was shown and the host went on, which changes no element of the CORE. -/
def Obligations.StepRunsDecodedCommand : Prop :=
  ∀ (s : State) (p : Pins) (rest : List HostAction), s.host = .cycle p :: rest → p.rst = false → p.we = true →
    p.addr = 0x00 →
    step s = commandWrite p.wdata s.sampled ∧ (∀ i, decode p.wdata = .command i → step s = exec i s.sampled) ∧
      SameCore s.sampled s ∧ s.sampled.host = rest

/-- 60_exceptions.md R199: every step and every command answers a next state. -/
def Obligations.MicroStepsNeverFail : Prop :=
  (∀ s : State, ∃ t, step s = .next t) ∧ ∀ (i : Instr) (s : State), ∃ t, exec i s = .next t

/-- 45_commands.md R172: NOP sets ERR to 0 and changes nothing else; while BUSY = 1 it is dropped with ERR = 5. -/
def Obligations.NopClearsErrOnly : Prop :=
  encode .nop = 0x00 ∧
  (∀ s : State, s.busy = false → exec .nop s = .next { s with err := 0 }) ∧
  (∀ s : State, s.busy = true → exec .nop s = .next { s.microStep with err := 5 })

/-- 45_commands.md R173: what an accepted SETUP leaves at its edge. Every field not written keeps its value. -/
def Obligations.SetupAcceptance : Prop :=
  ∀ (v : Variant) (s : State), s.busy = false → s.frameReg.extractLsb' 22 2 = 0 →
    exec (.setup v) s = .next
      { s with
        err := 0, variant := v, ready := false, busy := true
        klatch := s.keyReg[7] ++ s.keyReg[6] ++ s.keyReg[5] ++ s.keyReg[4] ++ s.keyReg[3] ++ s.keyReg[2] ++
          s.keyReg[1] ++ s.keyReg[0]
        flatch := s.frameReg.extractLsb' 0 22
        bank := { r1 := 0, r2 := 0, r3 := 0, r4 := 0, delay := false }
        abBits := 0, baBits := 0, sglBits := 0
        phase := .key, stepNo := 0 }

/-- 60_exceptions.md R192: a frame of 2^22 or more is rejected with ERR = 1 and READY = 0 and nothing else, and every
frame from 0 to 0x3FFFFF is accepted. -/
def Obligations.InvalidFrameRejected : Prop :=
  (∀ (v : Variant) (s : State), s.busy = false → s.frameReg.extractLsb' 22 2 ≠ 0 →
    exec (.setup v) s = .next { s with err := 1, ready := false }) ∧
  (∀ (v : Variant) (s : State), s.busy = false → s.frameReg.toNat ≤ 0x3FFFFF →
    ∃ t, exec (.setup v) s = .next t ∧ t.err = 0 ∧ t.busy = true) ∧
  (∀ s : State, s.frameReg.extractLsb' 22 2 ≠ 0 ↔ 2 ^ 22 ≤ s.frameReg.toNat)

/-- 45_commands.md R175: what an accepted GEN_DUAL leaves at its edge. SGL_BITS is not cleared. -/
def Obligations.GenDualAcceptance : Prop :=
  ∀ s : State, s.busy = false → s.ready = true →
    exec .genDual s = .next
      { s with err := 0, busy := true, abBits := 0, baBits := 0, phase := .genAB, stepNo := 0 }

/-- 45_commands.md R177: what an accepted GEN_SINGLE leaves at its edge. AB_BITS and BA_BITS are not cleared. -/
def Obligations.GenSingleAcceptance : Prop :=
  ∀ s : State, s.busy = false → s.ready = true → s.variant = .linear →
    exec .genSingle s = .next { s with err := 0, busy := true, sglBits := 0, phase := .genS, stepNo := 0 }

/-- 60_exceptions.md R194: a generate command without a session sets ERR to 3 and nothing else; that is so after
reset and after a rejected SETUP. -/
def Obligations.NotReadyRejected : Prop :=
  (∀ s : State, s.busy = false → s.ready = false →
    exec .genDual s = .next { s with err := 3 } ∧ exec .genSingle s = .next { s with err := 3 }) ∧
  State.reset.ready = false ∧
  (∀ (v : Variant) (s : State), s.busy = false → s.frameReg.extractLsb' 22 2 ≠ 0 →
    ∃ t, exec (.setup v) s = .next t ∧ t.ready = false ∧ t.busy = false)

/-- 60_exceptions.md R195: GEN_SINGLE in a NonLinear session sets ERR to 4 and nothing else, and a following GEN_DUAL
does what it would have done without it. -/
def Obligations.VariantMismatchRejected : Prop :=
  ∀ s : State, s.busy = false → s.ready = true → s.variant = .nonLinear →
    exec .genSingle s = .next { s with err := 4 } ∧ exec .genDual { s with err := 4 } = exec .genDual s

/-- 60_exceptions.md R196, 45_commands.md R170: while BUSY = 1 a write of any byte to CMD is dropped, ERR becomes 5,
and the running command's micro-step runs at that edge. -/
def Obligations.BusyDropsAnyWrite : Prop :=
  ∀ (v : Byte) (s : State), s.busy = true → commandWrite v s = .next { s.microStep with err := 5 }

/-- 60_exceptions.md R198: the code one CMD write leaves in ERR, in the order of the checks. -/
def Obligations.ErrorPriority : Prop :=
  ∀ (v : Byte) (s : State), ∃ t, commandWrite v s = .next t ∧
    t.err =
      if s.busy then 5
      else
        match decode v with
        | .illegal _ => 6
        | .command .nop => 0
        | .command (.setup _) => if s.frameReg.extractLsb' 22 2 = 0 then 0 else 1
        | .command .genDual => if s.ready then 0 else 3
        | .command .genSingle => if s.ready then (if s.variant = .nonLinear then 4 else 0) else 3

/-- 45_commands.md R171, the rows with BUSY = 0: ERR, BUSY, READY and VARIANT after any CMD write, and that a command
that is not accepted changes nothing but ERR and, for SETUP, READY. -/
def Obligations.CommandWriteOutcomes : Prop :=
  ∀ (v : Byte) (s : State), s.busy = false → ∃ t, commandWrite v s = .next t ∧
    (t.busy = true ↔ t.err = 0 ∧ decode v ≠ .command .nop) ∧
    (t.busy = false → SameCore t { s with err := t.err, ready := t.ready }) ∧
    (t.ready = true ↔ s.ready = true ∧ ∀ var, decode v ≠ .command (.setup var)) ∧
    (t.variant = s.variant ∨ (decode v = .command (.setup t.variant) ∧ t.busy = true))

/-- The frame of a command's edge while BUSY = 0: KEY_REG and FRAME_REG and the model's own fields never change; a
GEN command leaves the bank, the latches, READY and VARIANT; and the host reads at every offset but STATUS, ERR and
the buffers the command clears what it read before. -/
def Obligations.CommandFrame : Prop :=
  (∀ (i : Instr) (s t : State), s.busy = false → exec i s = .next t →
    t.keyReg = s.keyReg ∧ t.frameReg = s.frameReg ∧ t.host = s.host ∧ t.rdata = s.rdata ∧ t.draws = s.draws) ∧
  (∀ (s t : State) (a : Byte), s.busy = false → exec .nop s = .next t → a ≠ 0x02 → windowRead t a = windowRead s a) ∧
  (∀ (v : Variant) (s t : State) (a : Byte), s.busy = false → exec (.setup v) s = .next t →
    a.toNat ≠ 0x01 → a.toNat ≠ 0x02 → ¬(0x10 ≤ a.toNat ∧ a.toNat ≤ 0x1E) → ¬(0x20 ≤ a.toNat ∧ a.toNat ≤ 0x2E) →
    ¬(0x30 ≤ a.toNat ∧ a.toNat ≤ 0xA1) → windowRead t a = windowRead s a) ∧
  (∀ s t : State, s.busy = false → exec .genDual s = .next t →
    t.bank = s.bank ∧ t.klatch = s.klatch ∧ t.flatch = s.flatch ∧ t.ready = s.ready ∧ t.variant = s.variant ∧
    t.sglBits = s.sglBits ∧
    ∀ a : Byte, a.toNat ≠ 0x01 → a.toNat ≠ 0x02 → ¬(0x10 ≤ a.toNat ∧ a.toNat ≤ 0x1E) →
      ¬(0x20 ≤ a.toNat ∧ a.toNat ≤ 0x2E) → windowRead t a = windowRead s a) ∧
  (∀ s t : State, s.busy = false → exec .genSingle s = .next t →
    t.bank = s.bank ∧ t.klatch = s.klatch ∧ t.flatch = s.flatch ∧ t.ready = s.ready ∧ t.variant = s.variant ∧
    t.abBits = s.abBits ∧ t.baBits = s.baBits ∧
    ∀ a : Byte, a.toNat ≠ 0x01 → a.toNat ≠ 0x02 → ¬(0x30 ≤ a.toNat ∧ a.toNat ≤ 0xA1) →
      windowRead t a = windowRead s a)

/-! ### BitOps and clocking -/

/-- 40_bitops.md R100: parity is the number of 1 bits modulo 2, does not see zero bits above the width, and has the
rule's corner and example values. -/
def Obligations.ParityCountsOnes : Prop :=
  (∀ (n : Nat) (w : BitVec n), parity w = decide ((List.range n).countP (fun i => w.getLsbD i) % 2 = 1)) ∧
  (∀ (n m : Nat) (w : BitVec n), parity (w.setWidth (n + m)) = parity w) ∧
  (∀ n : Nat, parity (0 : BitVec n) = false) ∧
  parity (0x7FFFFF : BitVec 23) = true ∧ parity (0x052000 : BitVec 19) = true

/-- 40_bitops.md R102. -/
def Obligations.ParityLinear : Prop :=
  ∀ (n : Nat) (a b : BitVec n), parity (a ^^^ b) = (parity a ^^ parity b)

/-- 40_bitops.md R103: at least two of the three inputs agree with the majority. -/
def Obligations.MajorityAgreesWithTwo : Prop :=
  ∀ (l m n : Nat) (a : BitVec l) (b : BitVec m) (c : BitVec n),
    2 ≤ (decide (a ≠ 0) == majority a b c).toNat + (decide (b ≠ 0) == majority a b c).toNat +
      (decide (c ≠ 0) == majority a b c).toNat

/-- 41_register_clock.md R110, R111: bit 0 of a clocked register is the parity of its taps before the shift, with any
forced value that leaves bit 0 clear, and every other bit is the old bit below it or the forced bit; the old top bit
is gone. The forced values of 10_state.md R31 leave bit 0 clear, so a forced bit does not replace the feedback. -/
def Obligations.ClockOneShiftsInFeedback : Prop :=
  (∀ r f : Word1, f.getLsbD 0 = false → (clk1 r f).getLsbD 0 = parity (r &&& 0x072000)) ∧
  (∀ r f : Word2, f.getLsbD 0 = false → (clk2 r f).getLsbD 0 = parity (r &&& 0x300000)) ∧
  (∀ r f : Word3, f.getLsbD 0 = false → (clk3 r f).getLsbD 0 = parity (r &&& 0x700080)) ∧
  (∀ r f : Word4, f.getLsbD 0 = false → (clk4 r f).getLsbD 0 = parity (r &&& 0x010800)) ∧
  (∀ (r f : Word1) (k : Nat), k < 18 → (clk1 r f).getLsbD (k + 1) = (r.getLsbD k || f.getLsbD (k + 1))) ∧
  (∀ (r f : Word2) (k : Nat), k < 21 → (clk2 r f).getLsbD (k + 1) = (r.getLsbD k || f.getLsbD (k + 1))) ∧
  (∀ (r f : Word3) (k : Nat), k < 22 → (clk3 r f).getLsbD (k + 1) = (r.getLsbD k || f.getLsbD (k + 1))) ∧
  (∀ (r f : Word4) (k : Nat), k < 16 → (clk4 r f).getLsbD (k + 1) = (r.getLsbD k || f.getLsbD (k + 1))) ∧
  forced1.getLsbD 0 = false ∧ forced2.getLsbD 0 = false ∧ forced3.getLsbD 0 = false ∧ forced4.getLsbD 0 = false

/-- 41_register_clock.md R112: the result of a clock never exceeds the register's mask (10_state.md R27). It is said
of `clockOne` on 24-bit words, wider than every register, for every old value, also one with bits above the mask, and
every forced value inside the mask; and clk1 to clk4 are that same function on values inside the mask. -/
def Obligations.ClockKeepsMask : Prop :=
  (∀ taps r f : BitVec 24,
    (f &&& 0x07FFFF = f → (clockOne r 0x07FFFF taps f).toNat ≤ 0x07FFFF) ∧
    (f &&& 0x3FFFFF = f → (clockOne r 0x3FFFFF taps f).toNat ≤ 0x3FFFFF) ∧
    (f &&& 0x7FFFFF = f → (clockOne r 0x7FFFFF taps f).toNat ≤ 0x7FFFFF) ∧
    (f &&& 0x01FFFF = f → (clockOne r 0x01FFFF taps f).toNat ≤ 0x01FFFF)) ∧
  (∀ r f : Word1, (clk1 r f).setWidth 24 = clockOne (r.setWidth 24) 0x07FFFF 0x072000 (f.setWidth 24)) ∧
  (∀ r f : Word2, (clk2 r f).setWidth 24 = clockOne (r.setWidth 24) 0x3FFFFF 0x300000 (f.setWidth 24)) ∧
  (∀ r f : Word3, (clk3 r f).setWidth 24 = clockOne (r.setWidth 24) 0x7FFFFF 0x700080 (f.setWidth 24)) ∧
  (∀ r f : Word4, (clk4 r f).setWidth 24 = clockOne (r.setWidth 24) 0x01FFFF 0x010800 (f.setWidth 24))

/-- 10_state.md R29, R30: which bits the control bits are. 42_clock_control.md R125: with force_all = 0 two or three of r1, r2 and r3 advance, three exactly when the control
bits are equal; a held register's control bit differs from the other two; r4 advances in every NonLinear cycle. -/
def Obligations.TwoOrThreeAdvance : Prop :=
  (∀ b, controlBits .linear b = (b.r1.getLsbD 8, b.r2.getLsbD 10, b.r3.getLsbD 10)) ∧
  (∀ b, controlBits .nonLinear b = (b.r4.getLsbD 10, b.r4.getLsbD 3, b.r4.getLsbD 7)) ∧
  ∀ (v : Variant) (b : Bank) (c1 c2 c3 e1 e2 e3 : Bool), controlBits v b = (c1, c2, c3) → enables v false b = (e1, e2, e3) →
    (e1.toNat + e2.toNat + e3.toNat = 2 ∨ e1.toNat + e2.toNat + e3.toNat = 3) ∧
    (e1.toNat + e2.toNat + e3.toNat = 3 ↔ c1 = c2 ∧ c2 = c3) ∧
    (e1 = false → c1 ≠ c2 ∧ c1 ≠ c3) ∧ (e2 = false → c2 ≠ c1 ∧ c2 ≠ c3) ∧ (e3 = false → c3 ≠ c1 ∧ c3 ≠ c2) ∧
    (clock v false false b).r1 = (if e1 then clk1 b.r1 0 else b.r1) ∧
    (clock v false false b).r2 = (if e2 then clk2 b.r2 0 else b.r2) ∧
    (clock v false false b).r3 = (if e3 then clk3 b.r3 0 else b.r3) ∧
    (v = .nonLinear → (clock v false false b).r4 = clk4 b.r4 0)

/-- 42_clock_control.md R123, R120, R121: with force_all = 1 every register of the variant is clocked, with its forced
bit on a NonLinear loaded cycle; in the Linear variant `loaded` has no effect and r4 is not touched; DELAY never is. -/
def Obligations.ForceAllClocksEveryRegister : Prop :=
  (∀ ld b, clock .linear true ld b = { b with r1 := clk1 b.r1 0, r2 := clk2 b.r2 0, r3 := clk3 b.r3 0 }) ∧
  (∀ b, clock .nonLinear true false b =
    { b with r1 := clk1 b.r1 0, r2 := clk2 b.r2 0, r3 := clk3 b.r3 0, r4 := clk4 b.r4 0 }) ∧
  (∀ b, clock .nonLinear true true b =
    { b with
      r1 := clk1 b.r1 0x008000, r2 := clk2 b.r2 0x010000, r3 := clk3 b.r3 0x040000, r4 := clk4 b.r4 0x000400 })

/-- 44_keystream.md R150, 43_key_setup.md R136: an all-zero Linear bank is never left and gives only zeros. -/
def Obligations.ZeroLinearBankIsFixed : Prop :=
  (∀ n, mixFor .linear n Bank.zeroed = Bank.zeroed) ∧
  (∀ n, bankAfter .linear n Bank.zeroed = Bank.zeroed ∧ streamBit .linear Bank.zeroed n = false)

/-! ### Setup -/

/-- 43_key_setup.md R132: key bit i is bit i mod 8 of key byte i div 8, and KEY step i consumes exactly that bit of
KLATCH, after its CLOCK, into bit 0 of every register of the variant. -/
def Obligations.KeyBitsInOrder : Prop :=
  (∀ (k : Vector Byte 8) (i : Nat) (h : i / 8 < 8), (keyOperand k).getLsbD i = (k[i / 8]).getLsbD (i % 8)) ∧
  (∀ s : State, s.phase = .key → s.stepNo.toNat < 64 →
    let b := clock s.variant true false s.bank
    let k := (BitVec.ofBool (s.klatch.getLsbD s.stepNo.toNat))
    s.microStep.bank.r1 = b.r1 ^^^ k.setWidth 19 ∧ s.microStep.bank.r2 = b.r2 ^^^ k.setWidth 22 ∧
    s.microStep.bank.r3 = b.r3 ^^^ k.setWidth 23 ∧
    s.microStep.bank.r4 = (if s.variant = .nonLinear then b.r4 ^^^ k.setWidth 17 else s.bank.r4) ∧
    s.microStep.bank.delay = s.bank.delay)

/-- 43_key_setup.md R134: frame bit i is FRAME_REG[i] for i below 22, and FRAME step i consumes exactly that bit of
FLATCH, with loaded = 1 on step 21 only (42_clock_control.md R124). -/
def Obligations.FrameBitsInOrder : Prop :=
  (∀ (f : BitVec 24) (i : Nat), i < 22 → (frameOperand f).getLsbD i = f.getLsbD i) ∧
  (∀ s : State, s.phase = .frame → s.stepNo.toNat < 22 →
    let b := clock s.variant true (decide (s.stepNo.toNat = 21)) s.bank
    let f := (BitVec.ofBool (s.flatch.getLsbD s.stepNo.toNat))
    s.microStep.bank.r1 = b.r1 ^^^ f.setWidth 19 ∧ s.microStep.bank.r2 = b.r2 ^^^ f.setWidth 22 ∧
    s.microStep.bank.r3 = b.r3 ^^^ f.setWidth 23 ∧
    s.microStep.bank.r4 = (if s.variant = .nonLinear then b.r4 ^^^ f.setWidth 17 else s.bank.r4) ∧
    s.microStep.bank.delay = s.bank.delay)

/-- 43_key_setup.md R135: after FRAME step 21 of a NonLinear SETUP the four forced bits are 1, whatever the bank and
the frame were. -/
def Obligations.ForcedBitsAfterLoadedCycle : Prop :=
  ∀ s : State, s.phase = .frame → s.stepNo = 21 → s.variant = .nonLinear →
    s.microStep.bank.r1.getLsbD 15 = true ∧ s.microStep.bank.r2.getLsbD 16 = true ∧
    s.microStep.bank.r3.getLsbD 18 = true ∧ s.microStep.bank.r4.getLsbD 10 = true

/-- 43_key_setup.md R137, R138: PRIME writes DELAY with NLV of the bank as it stands, clocks nothing, and ends the
setup. -/
def Obligations.PrimeWritesDelayOnly : Prop :=
  ∀ s : State, s.phase = .prime →
    s.microStep = { s with
      bank := { s.bank with delay := nlv s.bank }, phase := .idle, stepNo := 0, busy := false, ready := true }

/-- 43_key_setup.md R141, 45_commands.md R174, R189: an accepted SETUP followed by its 186 or 187 edges, with no reset,
leaves SETUP_FN of the key and the frame at its edge, whatever else the host did; with an idle host it leaves exactly
the atomic transition. -/
def Obligations.SetupRunsSetupFunction : Prop :=
  (∀ (v : Variant) (s t : State), s.busy = false → frameInRange s.frameReg = true → exec (.setup v) s = .next t →
    noResetFor (busyTime (.setup v)) t.host = true →
    ∃ u, runSteps (busyTime (.setup v)) t = .next u ∧
      u.bank = setupBank (keyOperand s.keyReg) (frameOperand s.frameReg) v ∧ SameCommand u (s.setupAtomic v)) ∧
  (∀ (v : Variant) (s t : State), s.busy = false → frameInRange s.frameReg = true → exec (.setup v) s = .next t → s.host = [] →
    ∃ u, runSteps (busyTime (.setup v)) t = .next u ∧ SameCore u (s.setupAtomic v))

/-- 70_reset_and_hazards.md R223: an accepted command keeps BUSY = 1 for exactly its number of cycles, whatever the
data and whatever the host does short of reset. -/
def Obligations.BusyTimeIsFixed : Prop :=
  ∀ (i : Instr) (s t : State), s.busy = false → exec i s = .next t → t.busy = true → noResetFor (busyTime i) t.host = true →
    (∀ k, k < busyTime i → ∃ u, runSteps k t = .next u ∧ u.busy = true) ∧
    ∃ u, runSteps (busyTime i) t = .next u ∧ u.busy = false ∧ u.phase = .idle

/-- 30_encoding.md R90, 70_reset_and_hazards.md R223: a WAIT right after an accepted command reads BUSY = 1 exactly as
often as the command has micro-steps, and then BUSY = 0 once, and is over. -/
def Obligations.WaitReadsBusyTimePlusOne : Prop :=
  ∀ (i : Instr) (s t : State) (rest : List HostAction), s.busy = false → exec i s = .next t → t.busy = true → t.host = .wait :: rest →
    (∀ k, k < busyTime i →
      ∃ u, runSteps (k + 1) t = .next u ∧ u.rdata.getLsbD 0 = true ∧ u.host = .wait :: rest) ∧
    ∃ u, runSteps (busyTime i + 1) t = .next u ∧ u.rdata.getLsbD 0 = false ∧ u.host = rest

/-! ### Keystream -/

/-- 44_keystream.md R150, 10_state.md R32: the XOR of the top bits. 44_keystream.md R151, 10_state.md R33: NLV, by its
bits, with one complemented input in each majority term. 44_keystream.md R151, R158: the first NonLinear bit is DELAY
as the command found it, and every further one is the NLV of the generation step before; DELAY keeps the last. In the
Linear variant each bit is the XOR of the top bits of its own step's registers (R150), with no delay. -/
def Obligations.NonLinearOutputIsDelayed : Prop :=
  let maj (x y z : Bool) : Bool := (x && y) || (x && z) || (y && z)
  (∀ b, topBits b = (b.r1.getLsbD 18 ^^ b.r2.getLsbD 21 ^^ b.r3.getLsbD 22)) ∧
  (∀ b, nlv b = ((b.r1.getLsbD 18 ^^ b.r2.getLsbD 21 ^^ b.r3.getLsbD 22) ^^
    maj (b.r1.getLsbD 15) (!b.r1.getLsbD 14) (b.r1.getLsbD 12) ^^
    maj (!b.r2.getLsbD 16) (b.r2.getLsbD 13) (b.r2.getLsbD 9) ^^
    maj (b.r3.getLsbD 18) (b.r3.getLsbD 16) (!b.r3.getLsbD 13))) ∧
  (∀ b, streamBit .nonLinear b 0 = b.delay) ∧
  (∀ b i, streamBit .nonLinear b (i + 1) = nlv (bankAfter .nonLinear (i + 1) b)) ∧
  (∀ b n, 0 < n → (bankAfter .nonLinear n b).delay = nlv (bankAfter .nonLinear n b)) ∧
  (∀ b i, streamBit .linear b i = topBits (bankAfter .linear (i + 1) b))

/-- 45_commands.md R176, 44_keystream.md R153, R156, 70_reset_and_hazards.md R218: k edges after an accepted GEN_DUAL,
with no reset, the bank is k generation steps on, and the cells filled so far hold the keystream, A→B before B→A; the
other cells hold 0. After all 228, BUSY = 0. -/
def Obligations.GenDualFillsBothBursts : Prop :=
  ∀ (s t : State) (k : Nat), s.busy = false → s.ready = true → exec .genDual s = .next t → k ≤ 228 →
    noResetFor k t.host = true →
    ∃ u, runSteps k t = .next u ∧ u.bank = bankAfter s.variant k s.bank ∧
      (∀ i, i < 114 → cell u.abBits i = (decide (i < k) && streamBit s.variant s.bank i)) ∧
      (∀ i, i < 114 → cell u.baBits i = (decide (114 + i < k) && streamBit s.variant s.bank (114 + i))) ∧
      u.sglBits = s.sglBits ∧ u.ready = true ∧ u.variant = s.variant ∧ (u.busy = true ↔ k < 228)

/-- 45_commands.md R178, R189: k edges after an accepted GEN_SINGLE, with no reset, likewise for SGL_BITS. -/
def Obligations.GenSingleFillsItsBurst : Prop :=
  ∀ (s t : State) (k : Nat), s.busy = false → s.ready = true → s.variant = .linear → exec .genSingle s = .next t → k ≤ 114 →
    noResetFor k t.host = true →
    ∃ u, runSteps k t = .next u ∧ u.bank = bankAfter .linear k s.bank ∧
      (∀ i, i < 114 → cell u.sglBits i = (decide (i < k) && streamBit .linear s.bank i)) ∧
      u.abBits = s.abBits ∧ u.baBits = s.baBits ∧ u.ready = true ∧ (u.busy = true ↔ k < 114)

/-- 45_commands.md R189: with an idle host, the edges of an accepted GEN_DUAL or GEN_SINGLE leave exactly its atomic
transition. -/
def Obligations.GenerateRunsAtomicFunction : Prop :=
  (∀ s t : State, s.busy = false → s.ready = true → s.host = [] → exec .genDual s = .next t →
    ∃ u, runSteps 228 t = .next u ∧ SameCore u s.genDualAtomic) ∧
  (∀ s t : State, s.busy = false → s.ready = true → s.variant = .linear → s.host = [] → exec .genSingle s = .next t →
    ∃ u, runSteps 114 t = .next u ∧ SameCore u s.genSingleAtomic)

/-- 44_keystream.md R157, 45_commands.md R179: commands in a row take consecutive pieces of one keystream: a second
GEN_DUAL takes bits 228 to 455, and a GEN_SINGLE takes 114 bits from where a GEN_DUAL would. -/
def Obligations.CommandsContinueTheStream : Prop :=
  ∀ (s : State) (i : Nat), i < 114 →
    cell s.genDualAtomic.genDualAtomic.abBits i = streamBit s.variant s.bank (228 + i) ∧
    cell s.genDualAtomic.genDualAtomic.baBits i = streamBit s.variant s.bank (342 + i) ∧
    cell s.genSingleAtomic.sglBits i = cell s.genDualAtomic.abBits i ∧
    cell s.genSingleAtomic.genDualAtomic.abBits i = cell s.genDualAtomic.baBits i

/-- 44_keystream.md R154: PACK is MSB-first, with 0 beyond bit 113, and is fixed by its bits. -/
def Obligations.PackIsMsbFirst : Prop :=
  ∀ (bits : Burst) (j b : Nat), j ≤ 14 → b ≤ 7 →
    (pack bits j).getLsbD (7 - b) = if 8 * j + b ≤ 113 then bits.getLsbD (8 * j + b) else false

/-- 20_memory.md R66: bit i of a dual burst is bit 7 - i mod 8 of byte i div 8 of its 15 bytes; bit i of a single burst
is bit 0 of byte i. -/
def Obligations.BurstReadback : Prop :=
  ∀ (s : State) (i : Nat), i < 114 →
    (windowRead s (BitVec.ofNat 8 (0x10 + i / 8))).getLsbD (7 - i % 8) = cell s.abBits i ∧
    (windowRead s (BitVec.ofNat 8 (0x20 + i / 8))).getLsbD (7 - i % 8) = cell s.baBits i ∧
    (windowRead s (BitVec.ofNat 8 (0x30 + i))).getLsbD 0 = cell s.sglBits i

/-! ### The window -/

/-- 10_state.md R45, R46: the fields of STATUS and ERR; the bits above read 0, and a write of either is ignored. -/
def Obligations.StatusAndErrFields : Prop :=
  ∀ s : State,
    (windowRead s 0x01).getLsbD 0 = s.busy ∧ (windowRead s 0x01).getLsbD 1 = s.ready ∧
    (windowRead s 0x01).getLsbD 2 = decide (s.variant = .nonLinear) ∧
    (windowRead s 0x01).extractLsb' 3 5 = 0 ∧
    (windowRead s 0x02).extractLsb' 0 3 = s.err ∧ (windowRead s 0x02).extractLsb' 3 5 = 0 ∧
    (∀ v, windowStore 0x01 v s = s ∧ windowStore 0x02 v s = s) ∧
    windowRead State.reset 0x01 = 0 ∧ windowRead State.reset 0x02 = 0

/-- 10_state.md R48: FRAME0 to FRAME2 store and return every bit of their own byte and of no other, whatever BUSY is,
and read 0 after reset. -/
def Obligations.FrameBytesStoreAndReadBack : Prop :=
  ∀ (s : State) (v : Byte) (j : Nat), j < 3 →
    windowRead (windowStore (BitVec.ofNat 8 (4 + j)) v s) (BitVec.ofNat 8 (4 + j)) = v ∧
    (∀ i, i < 24 → (windowStore (BitVec.ofNat 8 (4 + j)) v s).frameReg.getLsbD i =
      if i / 8 = j then v.getLsbD (i % 8) else s.frameReg.getLsbD i) ∧
    { windowStore (BitVec.ofNat 8 (4 + j)) v s with frameReg := s.frameReg } = s ∧
    windowRead State.reset (BitVec.ofNat 8 (4 + j)) = 0

/-- 10_state.md R49: KEY0 to KEY7 store their own byte and nothing else, whatever BUSY is, read 0, and hold 0 after
reset. -/
def Obligations.KeyBytesStoreAndReadZero : Prop :=
  ∀ (s : State) (v : Byte) (i : Nat), i < 8 →
    (∀ (k : Nat) (h : k < 8), (windowStore (BitVec.ofNat 8 (8 + i)) v s).keyReg[k] = if k = i then v else s.keyReg[k]) ∧
    { windowStore (BitVec.ofNat 8 (8 + i)) v s with keyReg := s.keyReg } = s ∧
    windowRead s (BitVec.ofNat 8 (8 + i)) = 0 ∧ (∀ (k : Nat) (h : k < 8), State.reset.keyReg[k] = 0x00)

/-- 10_state.md R52: a reserved offset reads 0 and ignores a write, and a read-only offset ignores a write too. -/
def Obligations.ReservedAndReadOnlyOffsetsAreInert : Prop :=
  ∀ (s : State) (a v : Byte),
    (a.toNat = 0x03 ∨ a.toNat = 0x07 ∨ a.toNat = 0x1F ∨ a.toNat = 0x2F ∨ 0xA2 ≤ a.toNat →
      windowRead s a = 0 ∧ windowStore a v s = s) ∧
    (a.toNat = 0x01 ∨ a.toNat = 0x02 ∨ 0x10 ≤ a.toNat → windowStore a v s = s)

/-- 10_state.md R53: no read tells apart two states that differ only in the bank, DELAY, PHASE, STEP, the latches and
KEY_REG. -/
def Obligations.HiddenStateIsNotReadable : Prop :=
  ∀ s t : State, SameVisible s t → ∀ a, windowRead s a = windowRead t a

/-- 20_memory.md R70: a write to an offset other than CMD changes the read value of no other offset. -/
def Obligations.WriteLeavesOtherOffsets : Prop :=
  ∀ (s : State) (a b v : Byte), a ≠ 0x00 → b ≠ a → windowRead (windowStore a v s) b = windowRead s b

/-- 20_memory.md R62, R69, 70_reset_and_hazards.md R225: a read cycle shows the register as it stood before the edge,
and changes nothing that the edge would not change without it; while BUSY = 0 that is nothing, so the same read again
shows the same value. -/
def Obligations.ReadsHaveNoSideEffect : Prop :=
  (∀ (s : State) (a : Byte) (rest : List HostAction), s.host = .cycle (readPins a) :: rest →
    ∃ t, step s = .next t ∧ t.rdata = windowRead s a ∧ SameCore t s.sequencerEdge ∧ t.host = rest) ∧
  (∀ (s : State) (a : Byte) (rest : List HostAction), s.busy = false → s.host = .cycle (readPins a) :: .cycle (readPins a) :: rest →
    ∃ t u, step s = .next t ∧ step t = .next u ∧ SameCore u s ∧ u.rdata = t.rdata)

/-- 20_memory.md R62, R73, 70_reset_and_hazards.md R222: a step without reset and without a CMD write, whatever the
host's action is, runs a micro-step exactly while BUSY = 1, then does the host's write if there is one, and nothing
else; and a write to an offset other than CMD and a micro-step give the same in either order. 30_encoding.md R90: a
WAIT is a read, so it neither resets nor writes. That the pins of a cycle are those of the first action of a list in
State, and that a host with an empty list neither resets nor writes, is the model's choice
(notes/assumptions/2.md, DESIGN CHOICE). -/
def Obligations.HostWriteAndMicroStepAreDisjoint : Prop :=
  (∀ s : State, s.pins.rst = false → ¬(s.pins.we = true ∧ s.pins.addr = 0x00) →
    ∃ t, step s = .next t ∧
      SameCore t (if s.pins.we then windowStore s.pins.addr s.pins.wdata s.sequencerEdge else s.sequencerEdge)) ∧
  (∀ s : State, (s.busy = true → s.sequencerEdge = s.microStep) ∧ (s.busy = false → s.sequencerEdge = s)) ∧
  (∀ (s : State) (p : Pins) (rest : List HostAction), s.host = .cycle p :: rest → s.pins = p) ∧
  (∀ (s : State) (rest : List HostAction), s.host = .wait :: rest → s.pins.rst = false ∧ s.pins.we = false) ∧
  (∀ s : State, s.host = [] → s.pins.rst = false ∧ s.pins.we = false) ∧
  (∀ (s : State) (a v : Byte), windowStore a v s.microStep = (windowStore a v s).microStep)

/-- 70_reset_and_hazards.md R224, R215, R225: with both strobes the write takes effect as if re = 0, and `rdata` in
such a cycle, in a reset cycle and in a cycle with re = 0 (with a write, idle, or of a host with nothing more to do) is
the next free value of its kind, whatever that is. That the values are drawn by the counter `draws`, which each such
cycle advances by one, is the model's choice (notes/assumptions/4.md), and so is the idle host (notes/assumptions/2.md). -/
def Obligations.UnspecifiedReadDataIsFree : Prop :=
  (∀ (s : State) (p : Pins) (rest : List HostAction), p.rst = false → p.we = true →
    ∃ t u, step { s with host := .cycle { p with re := true } :: rest } = .next t ∧
      step { s with host := .cycle { p with re := false } :: rest } = .next u ∧ SameCore t u ∧
      t.host = u.host ∧ t.rdata = Config.bothStrobesRdata s.draws ∧ u.rdata = Config.idleRdata s.draws ∧
      t.draws = s.draws + 1 ∧ u.draws = s.draws + 1) ∧
  (∀ (s : State) (p : Pins) (rest : List HostAction), s.host = .cycle p :: rest →
    p.rst = false → p.we = false → p.re = false →
    ∃ t, step s = .next t ∧ t.rdata = Config.idleRdata s.draws ∧ t.draws = s.draws + 1 ∧ t.host = rest ∧
      SameCore t s.sequencerEdge) ∧
  (∀ s : State, s.host = [] →
    ∃ t, step s = .next t ∧ t.rdata = Config.idleRdata s.draws ∧ t.draws = s.draws + 1 ∧ t.host = [] ∧
      SameCore t s.sequencerEdge) ∧
  (∀ (s : State) (p : Pins) (rest : List HostAction), s.host = .cycle p :: rest → p.rst = true →
    ∃ t, step s = .next t ∧ t.rdata = Config.resetRdata s.draws ∧ t.draws = s.draws + 1 ∧ t.host = rest)

/-- 30_encoding.md R90: LDKEY puts its eight bytes into KEY_REG and LDFRAME its 24 bits into FRAME_REG, whether a
command runs or not, and leave the host at what it was to do next. -/
def Obligations.LoadLinesLoadOperands : Prop :=
  (∀ (s : State) (b : Vector Byte 8) (rest : List HostAction), s.host = expandLine (.ldKey b) ++ rest →
    ∃ t, runSteps 8 s = .next t ∧ t.keyReg = b ∧ t.frameReg = s.frameReg ∧ t.host = rest) ∧
  (∀ (s : State) (f : BitVec 24) (rest : List HostAction), s.host = expandLine (.ldFrame f) ++ rest →
    ∃ t, runSteps 3 s = .next t ∧ t.frameReg = f ∧ t.keyReg = s.keyReg ∧ t.host = rest)

/-! ### Reset -/

/-- 10_state.md R54: the reset value of every state element. -/
def Obligations.ResetValues : Prop :=
  State.reset.bank = { r1 := 0, r2 := 0, r3 := 0, r4 := 0, delay := false } ∧
  State.reset.variant = .linear ∧ State.reset.ready = false ∧ State.reset.busy = false ∧ State.reset.err = 0 ∧
  State.reset.phase = .idle ∧ State.reset.stepNo = 0 ∧
  State.reset.keyReg = #v[0x00, 0x00, 0x00, 0x00, 0x00, 0x00, 0x00, 0x00] ∧ State.reset.frameReg = 0 ∧
  State.reset.klatch = 0 ∧ State.reset.flatch = 0 ∧
  State.reset.abBits = 0 ∧ State.reset.baBits = 0 ∧ State.reset.sglBits = 0

/-- 70_reset_and_hazards.md R213: an edge with rst = 1 leaves every element of the CORE at its reset value, whatever
the state, the write in that cycle or the running command. -/
def Obligations.ResetIsConstant : Prop :=
  ∀ (s : State) (p : Pins) (rest : List HostAction), s.host = .cycle p :: rest → p.rst = true → ∃ t, step s = .next t ∧ SameCore t State.reset

/-! ### Whole-machine rules -/

/-- 10_state.md R38, R24, R25, R34-R36, R43, 60_exceptions.md R191, 70_reset_and_hazards.md R218: the invariant of the
CORE's state is kept by every step of any host. -/
def Obligations.StepKeepsInvariant : Prop := ∀ s t : State, s.Inv → step s = .next t → t.Inv

/-- 10_state.md R54: the reset state has the invariant. -/
def Obligations.ResetHasInvariant : Prop := State.reset.Inv

/-- 60_exceptions.md R191, R193: from a state in which ERR is neither 2 nor 7, no step makes it so. -/
def Obligations.ReservedErrCodesNeverWritten : Prop :=
  ∀ s t : State, s.err ≠ 2 → s.err ≠ 7 → step s = .next t → t.err ≠ 2 ∧ t.err ≠ 7

/-- 10_state.md R39: ERR changes only at a CMD write or at reset. -/
def Obligations.OnlyCommandWritesChangeErr : Prop :=
  ∀ s t : State, step s = .next t → t.err ≠ s.err →
    s.pins.rst = true ∨ (s.pins.we = true ∧ s.pins.addr = 0x00)

/-- 10_state.md R34, R42: without reset, VARIANT, KLATCH and FLATCH change only at the acceptance of a SETUP, which
loads its V, KEY_REG and FRAME_REG. -/
def Obligations.OnlyAcceptedSetupLoadsLatches : Prop :=
  ∀ s t : State, step s = .next t → s.pins.rst = false →
    t.variant ≠ s.variant ∨ t.klatch ≠ s.klatch ∨ t.flatch ≠ s.flatch →
    s.busy = false ∧ s.pins.we = true ∧ s.pins.addr = 0x00 ∧
      decode s.pins.wdata = .command (.setup t.variant) ∧ frameInRange s.frameReg = true ∧
      t.klatch = keyOperand s.keyReg ∧ t.flatch = frameOperand s.frameReg

/-- 10_state.md R35: READY rises only in the last micro-step of a SETUP, and falls only at reset or at a SETUP that is
accepted or rejected, that is one written while BUSY = 0. -/
def Obligations.ReadyFollowsSetup : Prop :=
  (∀ s t : State, step s = .next t → s.ready = false → t.ready = true →
    s.busy = true ∧ ((s.phase = .mix ∧ s.stepNo = 99 ∧ s.variant = .linear) ∨ s.phase = .prime)) ∧
  (∀ s t : State, step s = .next t → s.ready = true → t.ready = false →
    s.pins.rst = true ∨
      (s.busy = false ∧ s.pins.we = true ∧ s.pins.addr = 0x00 ∧ ∃ v, decode s.pins.wdata = .command (.setup v)))

/-- 10_state.md R24, R25, R39-R43, 44_keystream.md R153: what a micro-step leaves unchanged: ERR, VARIANT, the host's
registers and the latches always; r4 and DELAY in the Linear variant (there is no PRIME in it); and every buffer cell
but the one of its own phase and step. -/
def Obligations.MicroStepFrame : Prop :=
  ∀ s : State,
    s.microStep.err = s.err ∧ s.microStep.variant = s.variant ∧ s.microStep.keyReg = s.keyReg ∧
    s.microStep.frameReg = s.frameReg ∧ s.microStep.klatch = s.klatch ∧ s.microStep.flatch = s.flatch ∧
    s.microStep.host = s.host ∧ s.microStep.rdata = s.rdata ∧ s.microStep.draws = s.draws ∧
    (s.variant = .linear → s.phase ≠ .prime →
      s.microStep.bank.r4 = s.bank.r4 ∧ s.microStep.bank.delay = s.bank.delay) ∧
    (∀ i, s.phase ≠ .genAB ∨ i ≠ s.stepNo.toNat → cell s.microStep.abBits i = cell s.abBits i) ∧
    (∀ i, s.phase ≠ .genBA ∨ i ≠ s.stepNo.toNat → cell s.microStep.baBits i = cell s.baBits i) ∧
    (∀ i, s.phase ≠ .genS ∨ i ≠ s.stepNo.toNat → cell s.microStep.sglBits i = cell s.sglBits i)

/-- 45_commands.md R180, R181, 60_exceptions.md R196: whatever the host does short of reset while a command runs, the
command does the same: from two states that agree on all a running command reads and writes, with any two hosts, after
n edges within the command they agree on it again. -/
def Obligations.RunningCommandIgnoresHost : Prop :=
  ∀ (n : Nat) (s s' : State), SameCommand s s' → (∀ k, k < n → (microRun k s).busy = true) →
    noResetFor n s.host = true → noResetFor n s'.host = true →
    ∃ t t', runSteps n s = .next t ∧ runSteps n s' = .next t' ∧ SameCommand t t'
end

