-- ==== Sys2Proof/Laws/State.lean ====
section
/-! SUPPORT. One lemma for each field of State and each named update, so that no proof unfolds a record update. -/

namespace Sys2Proof.Machine

/-! `State.setErr` -/

@[simp] theorem State.setErr_bank (c : ErrorCode) (s : State) : (s.setErr c).bank = s.bank := rfl
@[simp] theorem State.setErr_variant (c : ErrorCode) (s : State) : (s.setErr c).variant = s.variant := rfl
@[simp] theorem State.setErr_ready (c : ErrorCode) (s : State) : (s.setErr c).ready = s.ready := rfl
@[simp] theorem State.setErr_busy (c : ErrorCode) (s : State) : (s.setErr c).busy = s.busy := rfl
@[simp] theorem State.setErr_err (c : ErrorCode) (s : State) : (s.setErr c).err = errorBits c := rfl
@[simp] theorem State.setErr_phase (c : ErrorCode) (s : State) : (s.setErr c).phase = s.phase := rfl
@[simp] theorem State.setErr_stepNo (c : ErrorCode) (s : State) : (s.setErr c).stepNo = s.stepNo := rfl
@[simp] theorem State.setErr_keyReg (c : ErrorCode) (s : State) : (s.setErr c).keyReg = s.keyReg := rfl
@[simp] theorem State.setErr_frameReg (c : ErrorCode) (s : State) : (s.setErr c).frameReg = s.frameReg := rfl
@[simp] theorem State.setErr_klatch (c : ErrorCode) (s : State) : (s.setErr c).klatch = s.klatch := rfl
@[simp] theorem State.setErr_flatch (c : ErrorCode) (s : State) : (s.setErr c).flatch = s.flatch := rfl
@[simp] theorem State.setErr_abBits (c : ErrorCode) (s : State) : (s.setErr c).abBits = s.abBits := rfl
@[simp] theorem State.setErr_baBits (c : ErrorCode) (s : State) : (s.setErr c).baBits = s.baBits := rfl
@[simp] theorem State.setErr_sglBits (c : ErrorCode) (s : State) : (s.setErr c).sglBits = s.sglBits := rfl
@[simp] theorem State.setErr_host (c : ErrorCode) (s : State) : (s.setErr c).host = s.host := rfl
@[simp] theorem State.setErr_rdata (c : ErrorCode) (s : State) : (s.setErr c).rdata = s.rdata := rfl
@[simp] theorem State.setErr_draws (c : ErrorCode) (s : State) : (s.setErr c).draws = s.draws := rfl

/-! `State.setBank` -/

@[simp] theorem State.setBank_bank (b : Bank) (s : State) : (s.setBank b).bank = b := rfl
@[simp] theorem State.setBank_variant (b : Bank) (s : State) : (s.setBank b).variant = s.variant := rfl
@[simp] theorem State.setBank_ready (b : Bank) (s : State) : (s.setBank b).ready = s.ready := rfl
@[simp] theorem State.setBank_busy (b : Bank) (s : State) : (s.setBank b).busy = s.busy := rfl
@[simp] theorem State.setBank_err (b : Bank) (s : State) : (s.setBank b).err = s.err := rfl
@[simp] theorem State.setBank_phase (b : Bank) (s : State) : (s.setBank b).phase = s.phase := rfl
@[simp] theorem State.setBank_stepNo (b : Bank) (s : State) : (s.setBank b).stepNo = s.stepNo := rfl
@[simp] theorem State.setBank_keyReg (b : Bank) (s : State) : (s.setBank b).keyReg = s.keyReg := rfl
@[simp] theorem State.setBank_frameReg (b : Bank) (s : State) : (s.setBank b).frameReg = s.frameReg := rfl
@[simp] theorem State.setBank_klatch (b : Bank) (s : State) : (s.setBank b).klatch = s.klatch := rfl
@[simp] theorem State.setBank_flatch (b : Bank) (s : State) : (s.setBank b).flatch = s.flatch := rfl
@[simp] theorem State.setBank_abBits (b : Bank) (s : State) : (s.setBank b).abBits = s.abBits := rfl
@[simp] theorem State.setBank_baBits (b : Bank) (s : State) : (s.setBank b).baBits = s.baBits := rfl
@[simp] theorem State.setBank_sglBits (b : Bank) (s : State) : (s.setBank b).sglBits = s.sglBits := rfl
@[simp] theorem State.setBank_host (b : Bank) (s : State) : (s.setBank b).host = s.host := rfl
@[simp] theorem State.setBank_rdata (b : Bank) (s : State) : (s.setBank b).rdata = s.rdata := rfl
@[simp] theorem State.setBank_draws (b : Bank) (s : State) : (s.setBank b).draws = s.draws := rfl

/-! `State.nextStep` -/

@[simp] theorem State.nextStep_bank (s : State) : s.nextStep.bank = s.bank := rfl
@[simp] theorem State.nextStep_variant (s : State) : s.nextStep.variant = s.variant := rfl
@[simp] theorem State.nextStep_ready (s : State) : s.nextStep.ready = s.ready := rfl
@[simp] theorem State.nextStep_busy (s : State) : s.nextStep.busy = s.busy := rfl
@[simp] theorem State.nextStep_err (s : State) : s.nextStep.err = s.err := rfl
@[simp] theorem State.nextStep_phase (s : State) : s.nextStep.phase = s.phase := rfl
@[simp] theorem State.nextStep_stepNo (s : State) : s.nextStep.stepNo = s.stepNo + 1 := rfl
@[simp] theorem State.nextStep_keyReg (s : State) : s.nextStep.keyReg = s.keyReg := rfl
@[simp] theorem State.nextStep_frameReg (s : State) : s.nextStep.frameReg = s.frameReg := rfl
@[simp] theorem State.nextStep_klatch (s : State) : s.nextStep.klatch = s.klatch := rfl
@[simp] theorem State.nextStep_flatch (s : State) : s.nextStep.flatch = s.flatch := rfl
@[simp] theorem State.nextStep_abBits (s : State) : s.nextStep.abBits = s.abBits := rfl
@[simp] theorem State.nextStep_baBits (s : State) : s.nextStep.baBits = s.baBits := rfl
@[simp] theorem State.nextStep_sglBits (s : State) : s.nextStep.sglBits = s.sglBits := rfl
@[simp] theorem State.nextStep_host (s : State) : s.nextStep.host = s.host := rfl
@[simp] theorem State.nextStep_rdata (s : State) : s.nextStep.rdata = s.rdata := rfl
@[simp] theorem State.nextStep_draws (s : State) : s.nextStep.draws = s.draws := rfl

/-! `State.enterPhase` -/

@[simp] theorem State.enterPhase_bank (p : Phase) (s : State) : (s.enterPhase p).bank = s.bank := rfl
@[simp] theorem State.enterPhase_variant (p : Phase) (s : State) : (s.enterPhase p).variant = s.variant := rfl
@[simp] theorem State.enterPhase_ready (p : Phase) (s : State) : (s.enterPhase p).ready = s.ready := rfl
@[simp] theorem State.enterPhase_busy (p : Phase) (s : State) : (s.enterPhase p).busy = s.busy := rfl
@[simp] theorem State.enterPhase_err (p : Phase) (s : State) : (s.enterPhase p).err = s.err := rfl
@[simp] theorem State.enterPhase_phase (p : Phase) (s : State) : (s.enterPhase p).phase = p := rfl
@[simp] theorem State.enterPhase_stepNo (p : Phase) (s : State) : (s.enterPhase p).stepNo = 0 := rfl
@[simp] theorem State.enterPhase_keyReg (p : Phase) (s : State) : (s.enterPhase p).keyReg = s.keyReg := rfl
@[simp] theorem State.enterPhase_frameReg (p : Phase) (s : State) : (s.enterPhase p).frameReg = s.frameReg := rfl
@[simp] theorem State.enterPhase_klatch (p : Phase) (s : State) : (s.enterPhase p).klatch = s.klatch := rfl
@[simp] theorem State.enterPhase_flatch (p : Phase) (s : State) : (s.enterPhase p).flatch = s.flatch := rfl
@[simp] theorem State.enterPhase_abBits (p : Phase) (s : State) : (s.enterPhase p).abBits = s.abBits := rfl
@[simp] theorem State.enterPhase_baBits (p : Phase) (s : State) : (s.enterPhase p).baBits = s.baBits := rfl
@[simp] theorem State.enterPhase_sglBits (p : Phase) (s : State) : (s.enterPhase p).sglBits = s.sglBits := rfl
@[simp] theorem State.enterPhase_host (p : Phase) (s : State) : (s.enterPhase p).host = s.host := rfl
@[simp] theorem State.enterPhase_rdata (p : Phase) (s : State) : (s.enterPhase p).rdata = s.rdata := rfl
@[simp] theorem State.enterPhase_draws (p : Phase) (s : State) : (s.enterPhase p).draws = s.draws := rfl

/-! `State.endCommand` -/

@[simp] theorem State.endCommand_bank (s : State) : s.endCommand.bank = s.bank := rfl
@[simp] theorem State.endCommand_variant (s : State) : s.endCommand.variant = s.variant := rfl
@[simp] theorem State.endCommand_ready (s : State) : s.endCommand.ready = s.ready := rfl
@[simp] theorem State.endCommand_busy (s : State) : s.endCommand.busy = false := rfl
@[simp] theorem State.endCommand_err (s : State) : s.endCommand.err = s.err := rfl
@[simp] theorem State.endCommand_phase (s : State) : s.endCommand.phase = .idle := rfl
@[simp] theorem State.endCommand_stepNo (s : State) : s.endCommand.stepNo = 0 := rfl
@[simp] theorem State.endCommand_keyReg (s : State) : s.endCommand.keyReg = s.keyReg := rfl
@[simp] theorem State.endCommand_frameReg (s : State) : s.endCommand.frameReg = s.frameReg := rfl
@[simp] theorem State.endCommand_klatch (s : State) : s.endCommand.klatch = s.klatch := rfl
@[simp] theorem State.endCommand_flatch (s : State) : s.endCommand.flatch = s.flatch := rfl
@[simp] theorem State.endCommand_abBits (s : State) : s.endCommand.abBits = s.abBits := rfl
@[simp] theorem State.endCommand_baBits (s : State) : s.endCommand.baBits = s.baBits := rfl
@[simp] theorem State.endCommand_sglBits (s : State) : s.endCommand.sglBits = s.sglBits := rfl
@[simp] theorem State.endCommand_host (s : State) : s.endCommand.host = s.host := rfl
@[simp] theorem State.endCommand_rdata (s : State) : s.endCommand.rdata = s.rdata := rfl
@[simp] theorem State.endCommand_draws (s : State) : s.endCommand.draws = s.draws := rfl

/-! `State.setupDone` -/

@[simp] theorem State.setupDone_bank (s : State) : s.setupDone.bank = s.bank := rfl
@[simp] theorem State.setupDone_variant (s : State) : s.setupDone.variant = s.variant := rfl
@[simp] theorem State.setupDone_ready (s : State) : s.setupDone.ready = true := rfl
@[simp] theorem State.setupDone_busy (s : State) : s.setupDone.busy = false := rfl
@[simp] theorem State.setupDone_err (s : State) : s.setupDone.err = s.err := rfl
@[simp] theorem State.setupDone_phase (s : State) : s.setupDone.phase = .idle := rfl
@[simp] theorem State.setupDone_stepNo (s : State) : s.setupDone.stepNo = 0 := rfl
@[simp] theorem State.setupDone_keyReg (s : State) : s.setupDone.keyReg = s.keyReg := rfl
@[simp] theorem State.setupDone_frameReg (s : State) : s.setupDone.frameReg = s.frameReg := rfl
@[simp] theorem State.setupDone_klatch (s : State) : s.setupDone.klatch = s.klatch := rfl
@[simp] theorem State.setupDone_flatch (s : State) : s.setupDone.flatch = s.flatch := rfl
@[simp] theorem State.setupDone_abBits (s : State) : s.setupDone.abBits = s.abBits := rfl
@[simp] theorem State.setupDone_baBits (s : State) : s.setupDone.baBits = s.baBits := rfl
@[simp] theorem State.setupDone_sglBits (s : State) : s.setupDone.sglBits = s.sglBits := rfl
@[simp] theorem State.setupDone_host (s : State) : s.setupDone.host = s.host := rfl
@[simp] theorem State.setupDone_rdata (s : State) : s.setupDone.rdata = s.rdata := rfl
@[simp] theorem State.setupDone_draws (s : State) : s.setupDone.draws = s.draws := rfl

/-! `State.storeFrame` -/

@[simp] theorem State.storeFrame_bank (j : Nat) (v : Byte) (s : State) : (s.storeFrame j v).bank = s.bank := rfl
@[simp] theorem State.storeFrame_variant (j : Nat) (v : Byte) (s : State) :
    (s.storeFrame j v).variant = s.variant := rfl
@[simp] theorem State.storeFrame_ready (j : Nat) (v : Byte) (s : State) : (s.storeFrame j v).ready = s.ready := rfl
@[simp] theorem State.storeFrame_busy (j : Nat) (v : Byte) (s : State) : (s.storeFrame j v).busy = s.busy := rfl
@[simp] theorem State.storeFrame_err (j : Nat) (v : Byte) (s : State) : (s.storeFrame j v).err = s.err := rfl
@[simp] theorem State.storeFrame_phase (j : Nat) (v : Byte) (s : State) : (s.storeFrame j v).phase = s.phase := rfl
@[simp] theorem State.storeFrame_stepNo (j : Nat) (v : Byte) (s : State) : (s.storeFrame j v).stepNo = s.stepNo := rfl
@[simp] theorem State.storeFrame_keyReg (j : Nat) (v : Byte) (s : State) : (s.storeFrame j v).keyReg = s.keyReg := rfl
@[simp] theorem State.storeFrame_frameReg (j : Nat) (v : Byte) (s : State) :
    (s.storeFrame j v).frameReg = setFrameByte s.frameReg j v := rfl
@[simp] theorem State.storeFrame_klatch (j : Nat) (v : Byte) (s : State) : (s.storeFrame j v).klatch = s.klatch := rfl
@[simp] theorem State.storeFrame_flatch (j : Nat) (v : Byte) (s : State) : (s.storeFrame j v).flatch = s.flatch := rfl
@[simp] theorem State.storeFrame_abBits (j : Nat) (v : Byte) (s : State) : (s.storeFrame j v).abBits = s.abBits := rfl
@[simp] theorem State.storeFrame_baBits (j : Nat) (v : Byte) (s : State) : (s.storeFrame j v).baBits = s.baBits := rfl
@[simp] theorem State.storeFrame_sglBits (j : Nat) (v : Byte) (s : State) :
    (s.storeFrame j v).sglBits = s.sglBits := rfl
@[simp] theorem State.storeFrame_host (j : Nat) (v : Byte) (s : State) : (s.storeFrame j v).host = s.host := rfl
@[simp] theorem State.storeFrame_rdata (j : Nat) (v : Byte) (s : State) : (s.storeFrame j v).rdata = s.rdata := rfl
@[simp] theorem State.storeFrame_draws (j : Nat) (v : Byte) (s : State) : (s.storeFrame j v).draws = s.draws := rfl

/-! `State.storeKey` -/

@[simp] theorem State.storeKey_bank (i : Nat) (v : Byte) (s : State) : (s.storeKey i v).bank = s.bank := rfl
@[simp] theorem State.storeKey_variant (i : Nat) (v : Byte) (s : State) : (s.storeKey i v).variant = s.variant := rfl
@[simp] theorem State.storeKey_ready (i : Nat) (v : Byte) (s : State) : (s.storeKey i v).ready = s.ready := rfl
@[simp] theorem State.storeKey_busy (i : Nat) (v : Byte) (s : State) : (s.storeKey i v).busy = s.busy := rfl
@[simp] theorem State.storeKey_err (i : Nat) (v : Byte) (s : State) : (s.storeKey i v).err = s.err := rfl
@[simp] theorem State.storeKey_phase (i : Nat) (v : Byte) (s : State) : (s.storeKey i v).phase = s.phase := rfl
@[simp] theorem State.storeKey_stepNo (i : Nat) (v : Byte) (s : State) : (s.storeKey i v).stepNo = s.stepNo := rfl
@[simp] theorem State.storeKey_keyReg (i : Nat) (v : Byte) (s : State) :
    (s.storeKey i v).keyReg = s.keyReg.setIfInBounds i v := rfl
@[simp] theorem State.storeKey_frameReg (i : Nat) (v : Byte) (s : State) :
    (s.storeKey i v).frameReg = s.frameReg := rfl
@[simp] theorem State.storeKey_klatch (i : Nat) (v : Byte) (s : State) : (s.storeKey i v).klatch = s.klatch := rfl
@[simp] theorem State.storeKey_flatch (i : Nat) (v : Byte) (s : State) : (s.storeKey i v).flatch = s.flatch := rfl
@[simp] theorem State.storeKey_abBits (i : Nat) (v : Byte) (s : State) : (s.storeKey i v).abBits = s.abBits := rfl
@[simp] theorem State.storeKey_baBits (i : Nat) (v : Byte) (s : State) : (s.storeKey i v).baBits = s.baBits := rfl
@[simp] theorem State.storeKey_sglBits (i : Nat) (v : Byte) (s : State) : (s.storeKey i v).sglBits = s.sglBits := rfl
@[simp] theorem State.storeKey_host (i : Nat) (v : Byte) (s : State) : (s.storeKey i v).host = s.host := rfl
@[simp] theorem State.storeKey_rdata (i : Nat) (v : Byte) (s : State) : (s.storeKey i v).rdata = s.rdata := rfl
@[simp] theorem State.storeKey_draws (i : Nat) (v : Byte) (s : State) : (s.storeKey i v).draws = s.draws := rfl

/-! `State.drawRdata` -/

@[simp] theorem State.drawRdata_bank (f : Nat → Byte) (s : State) : (s.drawRdata f).bank = s.bank := rfl
@[simp] theorem State.drawRdata_variant (f : Nat → Byte) (s : State) : (s.drawRdata f).variant = s.variant := rfl
@[simp] theorem State.drawRdata_ready (f : Nat → Byte) (s : State) : (s.drawRdata f).ready = s.ready := rfl
@[simp] theorem State.drawRdata_busy (f : Nat → Byte) (s : State) : (s.drawRdata f).busy = s.busy := rfl
@[simp] theorem State.drawRdata_err (f : Nat → Byte) (s : State) : (s.drawRdata f).err = s.err := rfl
@[simp] theorem State.drawRdata_phase (f : Nat → Byte) (s : State) : (s.drawRdata f).phase = s.phase := rfl
@[simp] theorem State.drawRdata_stepNo (f : Nat → Byte) (s : State) : (s.drawRdata f).stepNo = s.stepNo := rfl
@[simp] theorem State.drawRdata_keyReg (f : Nat → Byte) (s : State) : (s.drawRdata f).keyReg = s.keyReg := rfl
@[simp] theorem State.drawRdata_frameReg (f : Nat → Byte) (s : State) : (s.drawRdata f).frameReg = s.frameReg := rfl
@[simp] theorem State.drawRdata_klatch (f : Nat → Byte) (s : State) : (s.drawRdata f).klatch = s.klatch := rfl
@[simp] theorem State.drawRdata_flatch (f : Nat → Byte) (s : State) : (s.drawRdata f).flatch = s.flatch := rfl
@[simp] theorem State.drawRdata_abBits (f : Nat → Byte) (s : State) : (s.drawRdata f).abBits = s.abBits := rfl
@[simp] theorem State.drawRdata_baBits (f : Nat → Byte) (s : State) : (s.drawRdata f).baBits = s.baBits := rfl
@[simp] theorem State.drawRdata_sglBits (f : Nat → Byte) (s : State) : (s.drawRdata f).sglBits = s.sglBits := rfl
@[simp] theorem State.drawRdata_host (f : Nat → Byte) (s : State) : (s.drawRdata f).host = s.host := rfl
@[simp] theorem State.drawRdata_rdata (f : Nat → Byte) (s : State) : (s.drawRdata f).rdata = f s.draws := rfl
@[simp] theorem State.drawRdata_draws (f : Nat → Byte) (s : State) : (s.drawRdata f).draws = s.draws + 1 := rfl

/-! `State.resetEdge` -/

@[simp] theorem State.resetEdge_bank (s : State) : s.resetEdge.bank = Bank.zeroed := rfl
@[simp] theorem State.resetEdge_variant (s : State) : s.resetEdge.variant = .linear := rfl
@[simp] theorem State.resetEdge_ready (s : State) : s.resetEdge.ready = false := rfl
@[simp] theorem State.resetEdge_busy (s : State) : s.resetEdge.busy = false := rfl
@[simp] theorem State.resetEdge_err (s : State) : s.resetEdge.err = 0 := rfl
@[simp] theorem State.resetEdge_phase (s : State) : s.resetEdge.phase = .idle := rfl
@[simp] theorem State.resetEdge_stepNo (s : State) : s.resetEdge.stepNo = 0 := rfl
@[simp] theorem State.resetEdge_keyReg (s : State) : s.resetEdge.keyReg = Vector.replicate 8 0 := rfl
@[simp] theorem State.resetEdge_frameReg (s : State) : s.resetEdge.frameReg = 0 := rfl
@[simp] theorem State.resetEdge_klatch (s : State) : s.resetEdge.klatch = 0 := rfl
@[simp] theorem State.resetEdge_flatch (s : State) : s.resetEdge.flatch = 0 := rfl
@[simp] theorem State.resetEdge_abBits (s : State) : s.resetEdge.abBits = 0 := rfl
@[simp] theorem State.resetEdge_baBits (s : State) : s.resetEdge.baBits = 0 := rfl
@[simp] theorem State.resetEdge_sglBits (s : State) : s.resetEdge.sglBits = 0 := rfl
@[simp] theorem State.resetEdge_host (s : State) : s.resetEdge.host = s.host := rfl
@[simp] theorem State.resetEdge_rdata (s : State) : s.resetEdge.rdata = s.rdata := rfl
@[simp] theorem State.resetEdge_draws (s : State) : s.resetEdge.draws = s.draws := rfl

/-! The fields of a bank after each named update of it -/

@[simp] theorem storeDelay_r1 (b : Bank) : (storeDelay b).r1 = b.r1 := rfl
@[simp] theorem storeDelay_r2 (b : Bank) : (storeDelay b).r2 = b.r2 := rfl
@[simp] theorem storeDelay_r3 (b : Bank) : (storeDelay b).r3 = b.r3 := rfl
@[simp] theorem storeDelay_r4 (b : Bank) : (storeDelay b).r4 = b.r4 := rfl
@[simp] theorem storeDelay_delay (b : Bank) : (storeDelay b).delay = nlv b := rfl
@[simp] theorem xorBit_delay (v : Variant) (k : Bool) (b : Bank) : (xorBit v k b).delay = b.delay := rfl
@[simp] theorem clock_delay (v : Variant) (forceAll loaded : Bool) (b : Bank) :
    (clock v forceAll loaded b).delay = b.delay := by
  cases v <;> rfl
@[simp] theorem clock_linear_r4 (forceAll loaded : Bool) (b : Bank) : (clock .linear forceAll loaded b).r4 = b.r4 := rfl

end Sys2Proof.Machine
end

