-- ==== Sys2Proof/Laws/Ops.lean ====
section
/-! SUPPORT. For each shared operation, one lemma that says all it can do. -/

namespace Sys2Proof.Machine

/-! ### Words and cells -/

theorem parityBelow_of_agree {n m : Nat} (w : BitVec n) (u : BitVec m) (k : Nat)
    (h : ∀ i, i < k → w.getLsbD i = u.getLsbD i) : parityBelow w k = parityBelow u k := by
  induction k with
  | zero => rfl
  | succ k ih => rw [parityBelow, parityBelow, ih fun i hi => h i (Nat.lt_succ_of_lt hi), h k (Nat.lt_succ_self k)]

theorem parityBelow_above_width {n : Nat} (w : BitVec n) (m : Nat) : parityBelow w (n + m) = parityBelow w n := by
  induction m with
  | zero => rfl
  | succ m ih => rw [← Nat.add_assoc, parityBelow, ih, BitVec.getLsbD_of_ge _ _ (Nat.le_add_right n m)]; simp

theorem isSet_eq_decide {n : Nat} (w : BitVec n) : isSet w = decide (w ≠ 0) := by
  unfold isSet; rw [Bool.eq_iff_iff]; simp

theorem majority_eq {l m n : Nat} (a : BitVec l) (b : BitVec m) (c : BitVec n) :
    majority a b c = ((isSet a && isSet b) || (isSet a && isSet c) || (isSet b && isSet c)) := by
  unfold majority; cases isSet a <;> cases isSet b <;> cases isSet c <;> rfl

/-- Every bit but bit 0 of a clocked register, for a full mask. -/
theorem clockOne_bit_succ {w : Nat} (reg mask taps forced : BitVec w) (hm : mask = BitVec.allOnes w) (k : Nat)
    (hk : k + 1 < w) :
    (clockOne reg mask taps forced).getLsbD (k + 1) = (reg.getLsbD k || forced.getLsbD (k + 1)) := by
  unfold clockOne
  subst hm
  simp only [BitVec.getLsbD_or, BitVec.getLsbD_and, BitVec.getLsbD_shiftLeft, BitVec.getLsbD_setWidth,
    BitVec.getLsbD_ofBool]
  simp [hk]

/-- Bit 0 of a clocked register, for a forced value that leaves it clear: the feedback. -/
theorem clockOne_bit_zero {w : Nat} (reg mask taps forced : BitVec w) (hw : 0 < w) (hf : forced.getLsbD 0 = false) :
    (clockOne reg mask taps forced).getLsbD 0 = parity (reg &&& taps) := by
  unfold clockOne
  dsimp only
  rw [BitVec.getLsbD_or, hf]
  simp [hw]

/-- A word that counts as set because of one bit. -/
theorem isSet_and_bit {w : Nat} (x : BitVec w) (k : Nat) (hk : k < w) :
    isSet (x &&& BitVec.twoPow w k) = x.getLsbD k := by
  unfold isSet
  rw [BitVec.and_twoPow]
  cases hx : x.getLsbD k
  · simp
  · have hne : BitVec.twoPow w k ≠ 0#w := fun h => by
      have hbit := congrArg (fun y : BitVec w => y.getLsbD k) h
      simp [hk] at hbit
    simpa using hne

/-- A written cell reads as written, every other as before; a cell from 114 on is not written. -/
theorem cell_storeCell (bits : Burst) (i : Nat) (v : Bool) (j : Nat) :
    cell (storeCell bits i v) j = if j = i ∧ i < 114 then v else cell bits j := by
  unfold storeCell cell
  by_cases hj : j < 114
  · have hm : (1#114 <<< i).getLsbD j = decide (j = i) := by
      rw [BitVec.getLsbD_shiftLeft]
      by_cases h : j = i
      · subst h; simp [hj]
      · simp [hj, h]; omega
    by_cases h : j = i
    · subst h; cases v <;> simp [hj]
    · rw [if_neg (show ¬(j = i ∧ i < 114) from fun hh => h hh.1)]
      cases v
      · rw [if_neg (by decide), BitVec.getLsbD_and, BitVec.getLsbD_not, hm]; simp [hj, h]
      · rw [if_pos rfl, BitVec.getLsbD_or, hm]; simp [h]
  · rw [BitVec.getLsbD_of_ge _ _ (by omega), BitVec.getLsbD_of_ge _ _ (by omega), if_neg (by omega)]

@[simp] theorem cell_zero (i : Nat) : cell 0 i = false := by unfold cell; simp

/-- The bits of FRAME_REG after a write of one of its bytes. -/
theorem setFrameByte_bit (f : BitVec 24) (v : Byte) (j : Nat) (hj : j < 3) (i : Nat) (hi : i < 24) :
    (setFrameByte f j v).getLsbD i = if i / 8 = j then v.getLsbD (i % 8) else f.getLsbD i := by
  interval_cases j <;> simp only [setFrameByte, BitVec.getLsbD_append, BitVec.getLsbD_extractLsb'] <;>
    interval_cases i <;> simp

/-! ### Commands -/

theorem onCommand_busy (accept : State → Result) (s : State) (hb : s.busy = true) :
    s.onCommand accept = .next { s.microStep with err := 5 } := by
  unfold State.onCommand; rw [if_pos hb]; rfl

theorem onCommand_idle (accept : State → Result) (s : State) (hb : s.busy = false) :
    s.onCommand accept = accept s := by
  unfold State.onCommand; rw [hb]; rfl

theorem exec_busy (i : Instr) (s : State) (hb : s.busy = true) : exec i s = .next { s.microStep with err := 5 } := by
  cases i <;> exact onCommand_busy _ _ hb

/-- All that SETUP_ACCEPT can do. -/
theorem setupAccept_cases (v : Variant) (s : State) :
    (s.frameReg.extractLsb' 22 2 = 0 ∧ s.setupAccept v = .next
      { s with
        err := 0, variant := v, ready := false, busy := true, klatch := keyOperand s.keyReg
        flatch := frameOperand s.frameReg, bank := Bank.zeroed, abBits := 0, baBits := 0, sglBits := 0
        phase := .key, stepNo := 0 }) ∨
    (s.frameReg.extractLsb' 22 2 ≠ 0 ∧ s.setupAccept v = .next { s with err := 1, ready := false }) := by
  unfold State.setupAccept frameInRange
  by_cases hf : s.frameReg.extractLsb' 22 2 = 0
  · exact .inl ⟨hf, by rw [hf]; rfl⟩
  · exact .inr ⟨hf, by rw [if_neg (by simpa using hf)]; rfl⟩

/-- All that GEN_DUAL_ACCEPT can do. -/
theorem genDualAccept_cases (s : State) :
    (s.ready = true ∧ s.genDualAccept = .next
      { s with err := 0, busy := true, abBits := 0, baBits := 0, phase := .genAB, stepNo := 0 }) ∨
    (s.ready = false ∧ s.genDualAccept = .next { s with err := 3 }) := by
  unfold State.genDualAccept
  by_cases hr : s.ready = true
  · exact .inl ⟨hr, if_pos hr⟩
  · exact .inr ⟨by simpa using hr, if_neg hr⟩

/-- All that GEN_SINGLE_ACCEPT can do. -/
theorem genSingleAccept_cases (s : State) :
    (s.ready = true ∧ s.variant = .linear ∧ s.genSingleAccept = .next
      { s with err := 0, busy := true, sglBits := 0, phase := .genS, stepNo := 0 }) ∨
    (s.ready = true ∧ s.variant = .nonLinear ∧ s.genSingleAccept = .next { s with err := 4 }) ∨
    (s.ready = false ∧ s.genSingleAccept = .next { s with err := 3 }) := by
  unfold State.genSingleAccept
  by_cases hr : s.ready = true
  · rw [if_pos hr]
    split
    · exact .inr (.inl ⟨hr, ‹_›, rfl⟩)
    · exact .inl ⟨hr, ‹_›, rfl⟩
  · exact .inr (.inr ⟨by simpa using hr, if_neg hr⟩)

/-- All that the edge of a command can do while BUSY = 0. -/
theorem exec_idle_cases (i : Instr) (s : State) (hb : s.busy = false) :
    (i = .nop ∧ exec i s = .next { s with err := 0 }) ∨
    (∃ v, i = .setup v ∧ s.frameReg.extractLsb' 22 2 = 0 ∧ exec i s = .next
      { s with
        err := 0, variant := v, ready := false, busy := true, klatch := keyOperand s.keyReg
        flatch := frameOperand s.frameReg, bank := Bank.zeroed, abBits := 0, baBits := 0, sglBits := 0
        phase := .key, stepNo := 0 }) ∨
    (∃ v, i = .setup v ∧ s.frameReg.extractLsb' 22 2 ≠ 0 ∧ exec i s = .next { s with err := 1, ready := false }) ∨
    (i = .genDual ∧ s.ready = true ∧ exec i s = .next
      { s with err := 0, busy := true, abBits := 0, baBits := 0, phase := .genAB, stepNo := 0 }) ∨
    (i = .genSingle ∧ s.ready = true ∧ s.variant = .linear ∧ exec i s = .next
      { s with err := 0, busy := true, sglBits := 0, phase := .genS, stepNo := 0 }) ∨
    (i = .genSingle ∧ s.ready = true ∧ s.variant = .nonLinear ∧ exec i s = .next { s with err := 4 }) ∨
    ((i = .genDual ∨ i = .genSingle) ∧ s.ready = false ∧ exec i s = .next { s with err := 3 }) := by
  have he : ∀ accept : State → Result, s.onCommand accept = accept s := fun a => onCommand_idle a s hb
  cases i with
  | nop => exact .inl ⟨rfl, he _⟩
  | setup v =>
    rcases setupAccept_cases v s with ⟨h, hs⟩ | ⟨h, hs⟩
    · exact .inr (.inl ⟨v, rfl, h, (he _).trans hs⟩)
    · exact .inr (.inr (.inl ⟨v, rfl, h, (he _).trans hs⟩))
  | genDual =>
    rcases genDualAccept_cases s with ⟨h, hs⟩ | ⟨h, hs⟩
    · exact .inr (.inr (.inr (.inl ⟨rfl, h, (he _).trans hs⟩)))
    · exact .inr (.inr (.inr (.inr (.inr (.inr ⟨.inl rfl, h, (he _).trans hs⟩)))))
  | genSingle =>
    rcases genSingleAccept_cases s with ⟨h, hv, hs⟩ | ⟨h, hv, hs⟩ | ⟨h, hs⟩
    · exact .inr (.inr (.inr (.inr (.inl ⟨rfl, h, hv, (he _).trans hs⟩))))
    · exact .inr (.inr (.inr (.inr (.inr (.inl ⟨rfl, h, hv, (he _).trans hs⟩)))))
    · exact .inr (.inr (.inr (.inr (.inr (.inr ⟨.inr rfl, h, (he _).trans hs⟩)))))

/-- A CMD write runs the decoded command or is an illegal one. -/
theorem commandWrite_cases (v : Byte) (s : State) :
    (∃ i, decode v = .command i ∧ commandWrite v s = exec i s) ∨
    (∃ w, decode v = .illegal w ∧ commandWrite v s = illegalWrite s) := by
  unfold commandWrite
  cases hd : decode v with
  | command i => exact .inl ⟨i, rfl, rfl⟩
  | illegal w => exact .inr ⟨w, rfl, rfl⟩

/-! ### The window -/

/-- A write to the window changes KEY_REG and FRAME_REG at most. -/
theorem windowStore_eq (a v : Byte) (s : State) : ∃ k f, windowStore a v s = { s with keyReg := k, frameReg := f } := by
  unfold windowStore
  dsimp only
  split
  · exact ⟨_, _, rfl⟩
  · split
    · exact ⟨_, _, rfl⟩
    · exact ⟨_, _, rfl⟩

/-- A read depends on one element only, the one its offset shows. -/
theorem windowRead_congr (s t : State) (a : Byte)
    (hstatus : a.toNat = 0x01 → statusByte s = statusByte t) (herr : a.toNat = 0x02 → errByte s = errByte t)
    (hframe : 0x04 ≤ a.toNat ∧ a.toNat ≤ 0x06 → s.frameReg = t.frameReg)
    (hab : 0x10 ≤ a.toNat ∧ a.toNat ≤ 0x1E → s.abBits = t.abBits)
    (hba : 0x20 ≤ a.toNat ∧ a.toNat ≤ 0x2E → s.baBits = t.baBits)
    (hsgl : 0x30 ≤ a.toNat ∧ a.toNat ≤ 0xA1 → s.sglBits = t.sglBits) : windowRead s a = windowRead t a := by
  unfold windowRead
  dsimp only
  split; · exact hstatus ‹_›
  split; · exact herr ‹_›
  split; · rw [hframe ‹_›]
  split; · rw [hab ‹_›]
  split; · rw [hba ‹_›]
  split; · rw [hsgl ‹_›]
  rfl

/-! ### The micro-step, element by element -/

theorem countTo_keeps {α : Type} (g : State → α) (last : Nat) (done : State → State) (s : State)
    (hdone : ∀ u, g (done u) = g u) (hnext : ∀ u : State, g u.nextStep = g u) : g (s.countTo last done) = g s := by
  unfold State.countTo; split
  · exact hdone s
  · exact hnext s

theorem mixDone_keeps {α : Type} (g : State → α) (s : State) (hphase : ∀ u : State, g (u.enterPhase .prime) = g u)
    (hdone : ∀ u : State, g u.setupDone = g u) : g s.mixDone = g s := by
  unfold State.mixDone; split
  · exact hphase s
  · exact hdone s

/-- A view of the state that no micro-step writes into is the same after one. -/
theorem microStep_keeps {α : Type} (g : State → α) (s : State)
    (h : ∀ bk p st r b ab ba sg, g { s with
      bank := bk, phase := p, stepNo := st, ready := r, busy := b, abBits := ab, baBits := ba, sglBits := sg } = g s) :
    g s.microStep = g s := by
  have hc : ∀ n done bk ab ba sg,
      (∀ u : State, ∃ p st r b, done u = { u with phase := p, stepNo := st, ready := r, busy := b }) →
      g (State.countTo n done { s with bank := bk, abBits := ab, baBits := ba, sglBits := sg }) = g s := by
    intro n done bk ab ba sg hd
    unfold State.countTo; split
    · obtain ⟨p, st, r, b, hd⟩ := hd { s with bank := bk, abBits := ab, baBits := ba, sglBits := sg }
      rw [hd]; exact h _ _ _ _ _ _ _ _
    · exact h _ _ _ _ _ _ _ _
  unfold State.microStep
  cases s.phase
  · rfl
  · exact hc 63 _ _ _ _ _ fun u => ⟨_, _, _, _, rfl⟩
  · exact hc 21 _ _ _ _ _ fun u => ⟨_, _, _, _, rfl⟩
  · refine hc 99 State.mixDone _ _ _ _ fun u => ?_
    unfold State.mixDone; split <;> exact ⟨_, _, _, _, rfl⟩
  · exact h _ _ _ _ _ _ _ _
  · exact hc 113 (State.enterPhase .genBA) (genStep s.variant s.bank).2
      (storeCell s.abBits s.stepNo.toNat (genStep s.variant s.bank).1) s.baBits s.sglBits fun u => ⟨_, _, _, _, rfl⟩
  · exact hc 113 State.endCommand (genStep s.variant s.bank).2 s.abBits
      (storeCell s.baBits s.stepNo.toNat (genStep s.variant s.bank).1) s.sglBits fun u => ⟨_, _, _, _, rfl⟩
  · exact hc 113 State.endCommand (genStep s.variant s.bank).2 s.abBits s.baBits
      (storeCell s.sglBits s.stepNo.toNat (genStep s.variant s.bank).1) fun u => ⟨_, _, _, _, rfl⟩

/-- The bank after a micro-step. -/
theorem microStep_bank (s : State) :
    s.microStep.bank =
      match s.phase with
      | .idle => s.bank
      | .key => keyStepBank s.variant s.klatch s.stepNo.toNat s.bank
      | .frame => frameStepBank s.variant s.flatch s.stepNo.toNat s.bank
      | .mix => clock s.variant false false s.bank
      | .prime => storeDelay s.bank
      | .genAB | .genBA | .genS => (genStep s.variant s.bank).2 := by
  have hc : ∀ n done (u : State), (∀ u, (done u).bank = u.bank) → (State.countTo n done u).bank = u.bank :=
    fun n done u hd => countTo_keeps State.bank n done u hd fun _ => rfl
  unfold State.microStep
  cases s.phase
  · rfl
  · exact hc _ _ _ fun _ => rfl
  · exact hc _ _ _ fun _ => rfl
  · exact hc _ _ _ fun u => mixDone_keeps State.bank u (fun _ => rfl) fun _ => rfl
  · rfl
  · exact hc _ _ _ fun _ => rfl
  · exact hc _ _ _ fun _ => rfl
  · exact hc _ _ _ fun _ => rfl

/-- AB_BITS after a micro-step. -/
theorem microStep_abBits (s : State) :
    s.microStep.abBits =
      if s.phase = .genAB then storeCell s.abBits s.stepNo.toNat (genStep s.variant s.bank).1 else s.abBits := by
  have hc : ∀ n done (u : State), (∀ u, (done u).abBits = u.abBits) → (State.countTo n done u).abBits = u.abBits :=
    fun n done u hd => countTo_keeps State.abBits n done u hd fun _ => rfl
  unfold State.microStep
  cases s.phase
  · rfl
  · exact hc _ _ _ fun _ => rfl
  · exact hc _ _ _ fun _ => rfl
  · exact hc _ _ _ fun u => mixDone_keeps State.abBits u (fun _ => rfl) fun _ => rfl
  · rfl
  · exact hc _ _ _ fun _ => rfl
  · exact hc _ _ _ fun _ => rfl
  · exact hc _ _ _ fun _ => rfl

/-- BA_BITS after a micro-step. -/
theorem microStep_baBits (s : State) :
    s.microStep.baBits =
      if s.phase = .genBA then storeCell s.baBits s.stepNo.toNat (genStep s.variant s.bank).1 else s.baBits := by
  have hc : ∀ n done (u : State), (∀ u, (done u).baBits = u.baBits) → (State.countTo n done u).baBits = u.baBits :=
    fun n done u hd => countTo_keeps State.baBits n done u hd fun _ => rfl
  unfold State.microStep
  cases s.phase
  · rfl
  · exact hc _ _ _ fun _ => rfl
  · exact hc _ _ _ fun _ => rfl
  · exact hc _ _ _ fun u => mixDone_keeps State.baBits u (fun _ => rfl) fun _ => rfl
  · rfl
  · exact hc _ _ _ fun _ => rfl
  · exact hc _ _ _ fun _ => rfl
  · exact hc _ _ _ fun _ => rfl

/-- SGL_BITS after a micro-step. -/
theorem microStep_sglBits (s : State) :
    s.microStep.sglBits =
      if s.phase = .genS then storeCell s.sglBits s.stepNo.toNat (genStep s.variant s.bank).1 else s.sglBits := by
  have hc : ∀ n done (u : State), (∀ u, (done u).sglBits = u.sglBits) →
      (State.countTo n done u).sglBits = u.sglBits :=
    fun n done u hd => countTo_keeps State.sglBits n done u hd fun _ => rfl
  unfold State.microStep
  cases s.phase
  · rfl
  · exact hc _ _ _ fun _ => rfl
  · exact hc _ _ _ fun _ => rfl
  · exact hc _ _ _ fun u => mixDone_keeps State.sglBits u (fun _ => rfl) fun _ => rfl
  · rfl
  · exact hc _ _ _ fun _ => rfl
  · exact hc _ _ _ fun _ => rfl
  · exact hc _ _ _ fun _ => rfl

/-- The position of the sequencer after a micro-step: PHASE, STEP, BUSY and READY. -/
theorem microStep_position (s : State) :
    (s.microStep.phase, s.microStep.stepNo, s.microStep.busy, s.microStep.ready) =
      match s.phase with
      | .idle => (.idle, s.stepNo, s.busy, s.ready)
      | .key => if s.stepNo.toNat = 63 then (.frame, 0, s.busy, s.ready) else (.key, s.stepNo + 1, s.busy, s.ready)
      | .frame => if s.stepNo.toNat = 21 then (.mix, 0, s.busy, s.ready) else (.frame, s.stepNo + 1, s.busy, s.ready)
      | .mix =>
        if s.stepNo.toNat = 99 then
          match s.variant with
          | .nonLinear => (.prime, 0, s.busy, s.ready)
          | .linear => (.idle, 0, false, true)
        else (.mix, s.stepNo + 1, s.busy, s.ready)
      | .prime => (.idle, 0, false, true)
      | .genAB => if s.stepNo.toNat = 113 then (.genBA, 0, s.busy, s.ready) else (.genAB, s.stepNo + 1, s.busy, s.ready)
      | .genBA => if s.stepNo.toNat = 113 then (.idle, 0, false, s.ready) else (.genBA, s.stepNo + 1, s.busy, s.ready)
      | .genS => if s.stepNo.toNat = 113 then (.idle, 0, false, s.ready) else (.genS, s.stepNo + 1, s.busy, s.ready) := by
  have hc : ∀ (n : Nat) (done : State → State) (u : State),
      State.countTo n done u = if u.stepNo.toNat = n then done u else u.nextStep := fun _ _ _ => rfl
  rcases h : s.phase <;>
    simp only [State.microStep, h, State.keyStep, State.frameStep, State.mixStep, State.primeStep, State.genABStep,
      State.genBAStep, State.genSStep, hc, State.setBank] <;>
    (try split) <;> simp [State.enterPhase, State.nextStep, State.setupDone, State.endCommand]
  unfold State.mixDone
  cases hv : s.variant <;> simp [State.enterPhase, State.setupDone, State.endCommand]

end Sys2Proof.Machine
end

