-- ==== Sys2Proof/Laws/PerInstr.lean ====
section
/-! SUPPORT. The statement made for each command on its own: its byte has well-formed fields, they are the command's
own, and the byte decodes to the command. -/

namespace Sys2Proof.Laws

def RoundTrip.Statement (i : Instr) : Prop :=
  fieldsOf (encode i) = commandFields i ∧ (commandFields i).wellFormed = true ∧ decode (encode i) = .command i

theorem RoundTrip.nop : RoundTrip.Statement .nop := by unfold RoundTrip.Statement; decide

theorem RoundTrip.setup (v : Variant) : RoundTrip.Statement (.setup v) := by
  unfold RoundTrip.Statement; cases v <;> decide

theorem RoundTrip.genDual : RoundTrip.Statement .genDual := by unfold RoundTrip.Statement; decide

theorem RoundTrip.genSingle : RoundTrip.Statement .genSingle := by unfold RoundTrip.Statement; decide

end Sys2Proof.Laws
end

