-- ==== Sys2Proof/Laws/Step.lean ====
section
/-! SUPPORT. What one step can do, and runs within a command, said once. -/

namespace Sys2Proof.Machine

/-- The elements a micro-step never reads or writes, set to given values: ERR, the host's registers and the model's
own fields. -/
def State.outside (e : BitVec 3) (k : Vector Byte 8) (f : BitVec 24) (h : List HostAction) (r : Byte) (d : Nat)
    (s : State) : State :=
  { s with err := e, keyReg := k, frameReg := f, host := h, rdata := r, draws := d }

/-- The model's own fields, set to given values. -/
def State.own (h : List HostAction) (r : Byte) (d : Nat) (s : State) : State :=
  { s with host := h, rdata := r, draws := d }

/-! ### Micro-steps do not see what is outside -/

theorem countTo_outside (last : Nat) (done : State → State) (e k f h r d) (s : State)
    (hd : ∀ u, done (u.outside e k f h r d) = (done u).outside e k f h r d) :
    (s.outside e k f h r d).countTo last done = (s.countTo last done).outside e k f h r d := by
  unfold State.countTo
  by_cases hn : s.stepNo.toNat = last
  · rw [if_pos hn, if_pos (show (s.outside e k f h r d).stepNo.toNat = last from hn), hd]
  · rw [if_neg hn, if_neg (show ¬(s.outside e k f h r d).stepNo.toNat = last from hn)]; rfl

theorem microStep_outside (e k f h r d) (s : State) :
    (s.outside e k f h r d).microStep = s.microStep.outside e k f h r d := by
  have hph : (s.outside e k f h r d).phase = s.phase := rfl
  unfold State.microStep
  rw [hph]
  cases s.phase
  case idle => rfl
  case key =>
    exact countTo_outside 63 (State.enterPhase .frame) e k f h r d
      (s.setBank (keyStepBank s.variant s.klatch s.stepNo.toNat s.bank)) fun _ => rfl
  case frame =>
    exact countTo_outside 21 (State.enterPhase .mix) e k f h r d
      (s.setBank (frameStepBank s.variant s.flatch s.stepNo.toNat s.bank)) fun _ => rfl
  case mix =>
    refine countTo_outside 99 State.mixDone e k f h r d (s.setBank (clock s.variant false false s.bank)) fun u => ?_
    have hv : (u.outside e k f h r d).variant = u.variant := rfl
    unfold State.mixDone
    rw [hv]
    cases u.variant <;> rfl
  case prime => rfl
  case genAB =>
    exact countTo_outside 113 (State.enterPhase .genBA) e k f h r d
      { s with
        bank := (genStep s.variant s.bank).2
        abBits := storeCell s.abBits s.stepNo.toNat (genStep s.variant s.bank).1 } fun _ => rfl
  case genBA =>
    exact countTo_outside 113 State.endCommand e k f h r d
      { s with
        bank := (genStep s.variant s.bank).2
        baBits := storeCell s.baBits s.stepNo.toNat (genStep s.variant s.bank).1 } fun _ => rfl
  case genS =>
    exact countTo_outside 113 State.endCommand e k f h r d
      { s with
        bank := (genStep s.variant s.bank).2
        sglBits := storeCell s.sglBits s.stepNo.toNat (genStep s.variant s.bank).1 } fun _ => rfl

theorem microStep_self_outside (s : State) :
    s.microStep = s.microStep.outside s.err s.keyReg s.frameReg s.host s.rdata s.draws :=
  microStep_outside s.err s.keyReg s.frameReg s.host s.rdata s.draws s

theorem sequencerEdge_outside (e k f h r d) (s : State) :
    (s.outside e k f h r d).sequencerEdge = s.sequencerEdge.outside e k f h r d := by
  have hb : (s.outside e k f h r d).busy = s.busy := rfl
  unfold State.sequencerEdge
  rw [hb, microStep_outside]; split <;> rfl

theorem microRun_outside (n : Nat) (e k f h r d) (s : State) :
    microRun n (s.outside e k f h r d) = (microRun n s).outside e k f h r d := by
  induction n generalizing s with
  | zero => rfl
  | succ n ih => unfold microRun; rw [microStep_outside, ih]

theorem microRun_add (m n : Nat) (s : State) : microRun (m + n) s = microRun n (microRun m s) := by
  induction m generalizing s with
  | zero => rw [Nat.zero_add]; rfl
  | succ m ih => rw [Nat.succ_add]; exact ih s.microStep

theorem sequencerEdge_own (h r d) (s : State) : (s.own h r d).sequencerEdge = s.sequencerEdge.own h r d := by
  have hs : s.sequencerEdge = s.sequencerEdge.outside s.err s.keyReg s.frameReg s.host s.rdata s.draws :=
    sequencerEdge_outside s.err s.keyReg s.frameReg s.host s.rdata s.draws s
  rw [show s.own h r d = s.outside s.err s.keyReg s.frameReg h r d from rfl, sequencerEdge_outside]
  conv => rhs; rw [hs]
  rfl

theorem windowStore_own (a v : Byte) (h r d) (s : State) : windowStore a v (s.own h r d) = (windowStore a v s).own h r d := by
  unfold windowStore; dsimp only
  split
  · rfl
  · split <;> rfl

/-- The model's own fields are no input of an edge without reset and without a CMD write. -/
theorem plainEdge_own (p : Pins) (h r d) (s : State) : plainEdge p (s.own h r d) = (plainEdge p s).own h r d := by
  unfold plainEdge
  rw [sequencerEdge_own, windowStore_own]
  split <;> rfl

theorem onCommand_own (accept : State → Result) (h r d) (s t : State)
    (ha : ∀ u, accept s = .next u → accept (s.own h r d) = .next (u.own h r d)) (ht : s.onCommand accept = .next t) :
    (s.own h r d).onCommand accept = .next (t.own h r d) := by
  cases hb : s.busy
  · rw [onCommand_idle _ _ hb] at ht
    rw [onCommand_idle _ _ (show (s.own h r d).busy = false from hb)]
    exact ha t ht
  · have hm : (s.own h r d).microStep = s.microStep.own h r d := by
      have hs := sequencerEdge_own h r d s
      unfold State.sequencerEdge at hs
      rw [if_pos hb, if_pos (show (s.own h r d).busy = true from hb)] at hs
      exact hs
    rw [onCommand_busy _ _ hb] at ht
    rw [onCommand_busy _ _ (show (s.own h r d).busy = true from hb), hm]
    cases ht; rfl

/-- The model's own fields are no input of a command. -/
theorem exec_own (i : Instr) (h r d) (s t : State) (ht : exec i s = .next t) :
    exec i (s.own h r d) = .next (t.own h r d) := by
  cases i with
  | nop => exact onCommand_own State.nopExec h r d s t (fun u hu => by cases hu; rfl) ht
  | setup v =>
    refine onCommand_own (State.setupAccept v) h r d s t (fun u hu => ?_) ht
    unfold State.setupAccept at hu ⊢
    by_cases hf : frameInRange s.frameReg = true
    · rw [if_pos hf] at hu; rw [if_pos (show frameInRange (s.own h r d).frameReg = true from hf)]; cases hu; rfl
    · rw [if_neg hf] at hu; rw [if_neg (show ¬frameInRange (s.own h r d).frameReg = true from hf)]; cases hu; rfl
  | genDual =>
    refine onCommand_own State.genDualAccept h r d s t (fun u hu => ?_) ht
    unfold State.genDualAccept at hu ⊢
    by_cases hr : s.ready = true
    · rw [if_pos hr] at hu; rw [if_pos (show (s.own h r d).ready = true from hr)]; cases hu; rfl
    · rw [if_neg hr] at hu; rw [if_neg (show ¬(s.own h r d).ready = true from hr)]; cases hu; rfl
  | genSingle =>
    refine onCommand_own State.genSingleAccept h r d s t (fun u hu => ?_) ht
    have hro : (s.own h r d).ready = s.ready := rfl
    have hvo : (s.own h r d).variant = s.variant := rfl
    rcases genSingleAccept_cases s with ⟨a, c, b⟩ | ⟨a, c, b⟩ | ⟨a, b⟩ <;>
      rcases genSingleAccept_cases (s.own h r d) with ⟨a', c', b'⟩ | ⟨a', c', b'⟩ | ⟨a', b'⟩ <;>
      rw [b] at hu <;> cases hu <;> first | exact b' | simp_all

/-! ### The cycle up to its edge -/

theorem portRead_eq (p : Pins) (s : State) : ∃ r d, s.portRead p = { s with rdata := r, draws := d } := by
  unfold State.portRead State.drawRdata
  split
  · exact ⟨_, _, rfl⟩
  · split
    · exact ⟨_, _, rfl⟩
    · split <;> exact ⟨_, _, rfl⟩

theorem noResetFor_of_le {m n : Nat} (hmn : m ≤ n) (l : List HostAction) (h : noResetFor n l = true) :
    noResetFor m l = true := by
  simp only [noResetFor, List.all_eq_true] at h ⊢
  intro a ha
  exact h a (List.mem_of_mem_take (i := m) (by rw [List.take_take, Nat.min_eq_left hmn]; exact ha))

theorem advanceHost_eq (s : State) :
    ∃ h, s.advanceHost = { s with host := h } ∧ ∀ n, noResetFor (n + 1) s.host = true → noResetFor n h = true := by
  have tail : ∀ (a : HostAction) rest n, noResetFor (n + 1) (a :: rest) = true → noResetFor n rest = true := by
    intro a rest n h
    simp only [noResetFor, List.take_succ_cons, List.all_cons, Bool.and_eq_true] at h
    exact h.2
  have same : ∀ n, noResetFor (n + 1) s.host = true → noResetFor n s.host = true :=
    fun n => noResetFor_of_le (Nat.le_succ n) s.host
  unfold State.advanceHost
  rcases hs : s.host with _ | ⟨a, rest⟩
  · exact ⟨s.host, rfl, by rw [← hs]; exact same⟩
  · cases a with
    | cycle p => exact ⟨rest, rfl, tail _ _⟩
    | wait =>
      dsimp only
      split
      · exact ⟨s.host, rfl, by rw [← hs]; exact same⟩
      · exact ⟨rest, rfl, tail _ _⟩

theorem sampled_eq (s : State) :
    ∃ h r d, s.sampled = s.own h r d ∧ ∀ n, noResetFor (n + 1) s.host = true → noResetFor n h = true := by
  obtain ⟨r, d, h1⟩ := portRead_eq s.pins s
  obtain ⟨h, h2, h3⟩ := advanceHost_eq (s.portRead s.pins)
  refine ⟨h, r, d, ?_, ?_⟩
  · unfold State.sampled; rw [h2, h1]; rfl
  · rw [h1] at h3; exact h3

theorem pins_of_cycle (s : State) (p : Pins) (rest : List HostAction) (h : s.host = .cycle p :: rest) : s.pins = p := by
  unfold State.pins; rw [h]; rfl

theorem sampled_of_cycle (s : State) (p : Pins) (rest : List HostAction) (h : s.host = .cycle p :: rest) :
    s.sampled = { s.portRead p with host := rest } := by
  obtain ⟨r, d, h1⟩ := portRead_eq p s
  unfold State.sampled State.advanceHost
  rw [pins_of_cycle s p rest h, h1]; dsimp only; rw [h]

theorem pins_rst_of_noResetFor (s : State) (n : Nat) (h : noResetFor (n + 1) s.host = true) : s.pins.rst = false := by
  unfold State.pins
  rcases hs : s.host with _ | ⟨a, rest⟩
  · rfl
  · rw [hs] at h
    simp [noResetFor, assertsReset] at h
    exact h.1

/-! ### Steps -/

/-- All that an edge without reset can do while BUSY = 1: the micro-step, and a change of ERR, KEY_REG or
FRAME_REG. -/
theorem clockEdge_busy (p : Pins) (s : State) (hb : s.busy = true) (hr : p.rst = false) :
    ∃ e k f, clockEdge p s = .next { s.microStep with err := e, keyReg := k, frameReg := f } ∧
      (e = s.err ∨ (e = 5 ∧ p.we = true ∧ p.addr = 0x00)) := by
  have hid := microStep_self_outside s
  unfold clockEdge
  rw [hr, if_neg (by decide)]
  by_cases hc : (p.we && p.addr == offsetCmd) = true
  · rw [if_pos hc]
    simp only [Bool.and_eq_true, beq_iff_eq] at hc
    refine ⟨5, s.microStep.keyReg, s.microStep.frameReg, ?_, .inr ⟨rfl, hc.1, hc.2⟩⟩
    rcases commandWrite_cases p.wdata s with ⟨i, _, h⟩ | ⟨w, _, h⟩
    · rw [h, exec_busy i s hb]
    · rw [h]; exact onCommand_busy _ _ hb
  · rw [if_neg hc]
    unfold plainEdge State.sequencerEdge
    rw [if_pos hb]
    split
    · obtain ⟨k, f, h⟩ := windowStore_eq p.addr p.wdata s.microStep
      exact ⟨s.err, k, f, by rw [h, hid]; rfl, .inl rfl⟩
    · exact ⟨s.err, s.keyReg, s.frameReg, by rw [hid]; rfl, .inl rfl⟩

/-- All that a step without reset can do while BUSY = 1. -/
theorem step_busy (s : State) (hb : s.busy = true) (hr : s.pins.rst = false) :
    ∃ e k f h r d, step s = .next (s.microStep.outside e k f h r d) ∧
      (e = s.err ∨ (e = 5 ∧ s.pins.we = true ∧ s.pins.addr = 0x00)) ∧
      ∀ n, noResetFor (n + 1) s.host = true → noResetFor n h = true := by
  obtain ⟨h, r, d, hs, hn⟩ := sampled_eq s
  obtain ⟨e, k, f, hc, he⟩ := clockEdge_busy s.pins s.sampled (by rw [hs]; exact hb) hr
  refine ⟨e, k, f, h, r, d, ?_, by rw [hs] at he; exact he, hn⟩
  have key : s.sampled = s.outside s.err s.keyReg s.frameReg h r d := hs
  unfold step
  rw [hc, key, microStep_outside]
  rfl

/-- A step of an idle CORE that is no reset and no CMD write changes KEY_REG and FRAME_REG and the model's own fields
at most. -/
theorem step_idle_no_command (s : State) (hb : s.busy = false) (hr : s.pins.rst = false)
    (hc : ¬(s.pins.we = true ∧ s.pins.addr = 0x00)) :
    ∃ k f h r d, step s = .next (s.outside s.err k f h r d) := by
  obtain ⟨h, r, d, hs, _⟩ := sampled_eq s
  have hc' : ¬(s.pins.we && s.pins.addr == offsetCmd) = true := by
    simp only [Bool.and_eq_true, beq_iff_eq]; exact hc
  unfold step clockEdge plainEdge State.sequencerEdge
  rw [hr, if_neg (by decide), if_neg hc', hs, if_neg (show ¬(s.own h r d).busy = true by
    rw [show (s.own h r d).busy = s.busy from rfl, hb]; decide)]
  split
  · obtain ⟨k, f, hk⟩ := windowStore_eq s.pins.addr s.pins.wdata (s.own h r d)
    rw [hk]; exact ⟨k, f, h, r, d, rfl⟩
  · exact ⟨s.keyReg, s.frameReg, h, r, d, rfl⟩

/-- A step without reset and without a CMD write is the plain edge. -/
theorem step_no_command (s : State) (hr : s.pins.rst = false) (hc : ¬(s.pins.we = true ∧ s.pins.addr = 0x00)) :
    step s = .next (plainEdge s.pins s.sampled) := by
  unfold step clockEdge
  rw [hr, if_neg (by decide), if_neg (by simpa [offsetCmd] using hc)]

/-- A CMD write is the decoded command's edge, or the illegal command's, on the sampled state. -/
theorem step_command (s : State) (hr : s.pins.rst = false) (hw : s.pins.we = true) (ha : s.pins.addr = 0x00) :
    step s = commandWrite s.pins.wdata s.sampled := by
  unfold step clockEdge
  rw [hr, if_neg (by decide), hw, ha, if_pos (by decide)]

/-- A step with rst = 1. -/
theorem step_reset (s : State) (hr : s.pins.rst = true) : step s = .next s.sampled.resetEdge := by
  unfold step clockEdge
  rw [if_pos hr]

/-- A run within a command is its micro-steps; what is outside them may be anything. -/
theorem runSteps_busy (n : Nat) (s : State) (hb : ∀ k, k < n → (microRun k s).busy = true)
    (hr : noResetFor n s.host = true) : ∃ e k f h r d, runSteps n s = .next ((microRun n s).outside e k f h r d) := by
  induction n generalizing s with
  | zero => exact ⟨s.err, s.keyReg, s.frameReg, s.host, s.rdata, s.draws, rfl⟩
  | succ n ih =>
    obtain ⟨e, k, f, h, r, d, hs, _, hn⟩ := step_busy s (hb 0 (Nat.succ_pos n)) (pins_rst_of_noResetFor s n hr)
    obtain ⟨e', k', f', h', r', d', ht⟩ := ih (s.microStep.outside e k f h r d)
      (fun j hj => by rw [microRun_outside]; exact hb (j + 1) (Nat.succ_lt_succ hj)) (hn n hr)
    refine ⟨e', k', f', h', r', d', ?_⟩
    unfold runSteps
    rw [hs]
    dsimp only
    rw [ht, microRun_outside]
    rfl

/-- Two states with the same CORE differ in the model's own fields at most. -/
theorem eq_own_of_sameCore {s t : State} (h : SameCore s t) : s = t.own s.host s.rdata s.draws := by
  unfold SameCore at h; cases s; cases t; simp_all [State.own]

end Sys2Proof.Machine
end

