-- ==== Sys2Proof/Tests/Slice0.lean ====
section
/-! SUPPORT. Own tests: the checks of a command's fields, the decoding of bytes written out from the spec, vectors of
spec/95_test_vectors.md, one step per command, and for each statement with hypotheses a state that meets them. -/

namespace Sys2Proof.Tests

open Sys2Proof Sys2Proof.Machine

/-! ### Well-formedness: an ill-formed command for each check (30_encoding.md R82, R83, R81) -/

theorem test_rsv_set_is_refused :
    (⟨1, 0, 0x0⟩ : CommandFields).rsvClear = false ∧ (⟨1, 0, 0x0⟩ : CommandFields).wellFormed = false := by decide

theorem test_reserved_op_is_refused :
    (⟨0, 0, 0x4⟩ : CommandFields).opDefined = false ∧ (⟨0, 0, 0x4⟩ : CommandFields).wellFormed = false := by decide

theorem test_variant_off_setup_is_refused :
    (⟨0, 1, 0x2⟩ : CommandFields).variantOnlyOnSetup = false ∧ (⟨0, 1, 0x2⟩ : CommandFields).wellFormed = false := by
  decide

/-! ### Decoding: RSV, V, OP written out bit by bit (30_encoding.md R80-R84) -/

theorem test_decode_nop : decode (0b000#3 ++ 0b0#1 ++ 0b0000#4) = .command .nop := by decide
theorem test_decode_setup_linear : decode (0b000#3 ++ 0b0#1 ++ 0b0001#4) = .command (.setup .linear) := by decide
theorem test_decode_setup_nonLinear : decode (0b000#3 ++ 0b1#1 ++ 0b0001#4) = .command (.setup .nonLinear) := by decide
theorem test_decode_genDual : decode (0b000#3 ++ 0b0#1 ++ 0b0010#4) = .command .genDual := by decide
theorem test_decode_genSingle : decode (0b000#3 ++ 0b0#1 ++ 0b0011#4) = .command .genSingle := by decide

/-- The first and last illegal byte of each class (30_encoding.md R85). -/
theorem test_decode_illegal :
    decode 0x20 = .illegal .reservedBitsSet ∧ decode 0xFF = .illegal .reservedBitsSet ∧
    decode 0x04 = .illegal .reservedOperation ∧ decode 0x0F = .illegal .reservedOperation ∧
    decode 0x10 = .illegal .variantWithoutSetup ∧ decode 0x13 = .illegal .variantWithoutSetup ∧
    decode 0x14 = .illegal .variantWithoutSetup ∧ decode 0x1F = .illegal .variantWithoutSetup := by decide

/-! ### Vectors of 95_test_vectors.md -/

/-- V8. -/
theorem test_parity :
    parity 0x000003#24 = false ∧ parity 0x7FFFFF#23 = true ∧ parity 0x072000#19 = false ∧ parity 0x052000#19 = true ∧
    parity 0xFFFFFFFF#32 = false := by decide

/-- V9: the three rows with two words set. -/
theorem test_majority :
    majority 0#19 0x2000#22 0x400#23 = true ∧ majority 0x8000#19 0#22 0x400#23 = true ∧
    majority 0x8000#19 0x2000#22 0#23 = true ∧ majority 0x8000#19 0#22 0#23 = false := by decide

/-- V10. -/
theorem test_clockOne :
    clk1 0x12345 0 = 0x2468A ∧ clk1 0x40000 0 = 0x00001 ∧ clk2 0x100000 0 = 0x200001 ∧ clk3 0x700080 0 = 0x600100 ∧
    clk4 0x00800 0 = 0x01001 := by decide

/-- V11. -/
theorem test_clockOne_forced : clk1 0x7FFFF 0x08000 = 0x7FFFE ∧ clk4 0x1FFFF 0x00400 = 0x1FFFE := by decide

/-- V12: r1 is held, and moves with force_all. -/
theorem test_clock_linear :
    clock .linear false false ⟨0x100, 0, 0, 0, false⟩ = ⟨0x100, 0, 0, 0, false⟩ ∧
    clock .linear true true ⟨0x100, 0, 0, 0, false⟩ = ⟨0x200, 0, 0, 0, false⟩ := by decide

/-- V13: all ones, and the loaded cycle. -/
theorem test_clock_nonLinear :
    clock .nonLinear false false ⟨0x7FFFF, 0x3FFFFF, 0x7FFFFF, 0x1FFFF, false⟩ =
      ⟨0x7FFFE, 0x3FFFFE, 0x7FFFFE, 0x1FFFE, false⟩ ∧
    clock .nonLinear true true ⟨0, 0, 0, 0x00400, false⟩ = ⟨0x08000, 0x010000, 0x040000, 0x00C00, false⟩ := by decide

/-- V15: rows 3 and 4. -/
theorem test_nlv :
    nlv ⟨0x04000, 0x010000, 0x002000, 0, false⟩ = false ∧ nlv ⟨0x09000, 0x002200, 0x050000, 0, false⟩ = true := by
  decide

/-- V16: only bit 113, and bit i = 1 iff i even. -/
theorem test_pack :
    pack (1#114 <<< 113) 14 = 0x40 ∧ pack (1#114 <<< 8) 1 = 0x80 ∧
    pack 0x15555555555555555555555555555#114 14 = 0x80 := by decide

/-! ### One micro-step of each phase, between two rows of V1's and V2's tables -/

/-- A command in progress. -/
def running (v : Variant) (p : Phase) (n : BitVec 7) (b : Bank) : State :=
  { State.reset with variant := v, busy := true, phase := p, stepNo := n, bank := b }

/-- V1: KEY step 0 to KEY step 1; bit 1 of key byte 0 = 0x12 is 1. -/
theorem test_key_step :
    { running .linear .key 1 Bank.zeroed with klatch := 0xEFCDAB8967452312 }.microStep.bank = ⟨1, 1, 1, 0, false⟩ := by
  decide

/-- V1 and V2: FRAME step 20 to FRAME step 21, frames 0x134 and 0x21. -/
theorem test_frame_step :
    { running .linear .frame 21 ⟨0x43251, 0x15E072, 0x396FC6, 0, false⟩ with flatch := 0x134 }.microStep.bank =
      ⟨0x064A2, 0x2BC0E5, 0x72DF8D, 0, false⟩ ∧
    { running .nonLinear .frame 21 ⟨0x37FA2, 0x308A00, 0x388119, 0x10377, false⟩ with flatch := 0x21 }.microStep.bank =
      ⟨0x6FF45, 0x211400, 0x750232, 0x006EF, false⟩ := by decide

/-- V1 and V2: FRAME step 21 to MIX step 0. -/
theorem test_mix_step :
    (running .linear .mix 0 ⟨0x064A2, 0x2BC0E5, 0x72DF8D, 0, false⟩).microStep.bank =
      ⟨0x0C945, 0x1781CB, 0x72DF8D, 0, false⟩ ∧
    (running .nonLinear .mix 0 ⟨0x6FF45, 0x211400, 0x750232, 0x006EF, false⟩).microStep.bank =
      ⟨0x5FE8B, 0x022801, 0x6A0465, 0x00DDE, false⟩ := by decide

/-- V2: MIX step 99 to PRIME, the ready state. -/
theorem test_prime_step :
    let t := (running .nonLinear .prime 0 ⟨0x33195, 0x3CC07C, 0x151B22, 0x0CE3E, false⟩).microStep
    t.bank = ⟨0x33195, 0x3CC07C, 0x151B22, 0x0CE3E, true⟩ ∧ t.ready = true ∧ t.busy = false := by decide

/-- V1 and V2: the ready state to GEN_AB step 0, bits 0 and 1. -/
theorem test_gen_step :
    genStep .linear ⟨0x1DA4B, 0x2CB2F9, 0x08BE5F, 0, false⟩ = (false, ⟨0x3B497, 0x1965F3, 0x08BE5F, 0, false⟩) ∧
    genStep .nonLinear ⟨0x33195, 0x3CC07C, 0x151B22, 0x0CE3E, true⟩ =
      (true, ⟨0x6632B, 0x3980F8, 0x151B22, 0x19C7D, true⟩) := by decide

/-! ### Small states -/

/-- A CORE with a session. -/
def session (v : Variant) : State := { State.reset with ready := true, variant := v, bank := ⟨1, 2, 3, 0, false⟩ }

/-- A CORE with a frame loaded. -/
def loaded (f : BitVec 24) : State := { State.reset with frameReg := f }

/-- A state whose host makes one cycle with these pins. -/
def driven (s : State) (p : Pins) : State := { s with host := [.cycle p] }

/-! ### One step of each command, by its byte, through the port -/

/-- The CORE's outcome of the step that writes a byte to CMD: ERR, BUSY, READY and PHASE. -/
def outcomeOf (s : State) (v : Byte) : Option (BitVec 3 × Bool × Bool × Phase) :=
  match step (driven s (writePins 0x00 v)) with
  | .next t => some (t.err, t.busy, t.ready, t.phase)
  | .fault _ => none
  | .refused _ => none

/-- 45_commands.md R172; while BUSY = 1 it is dropped (60_exceptions.md R196). -/
theorem test_nop :
    outcomeOf { session .linear with err := 6 } 0x00 = some (0, false, true, .idle) ∧
    outcomeOf (running .linear .mix 5 Bank.zeroed) 0x00 = some (5, true, false, .mix) := ⟨rfl, rfl⟩

/-- 45_commands.md R173: the largest frame. -/
theorem test_setup_accepted : outcomeOf (loaded 0x3FFFFF) 0x11 = some (0, true, false, .key) := rfl

/-- 60_exceptions.md R192: the smallest frame that is too large. -/
theorem test_setup_rejected :
    outcomeOf { session .linear with frameReg := 0x400000 } 0x01 = some (1, false, false, .idle) := rfl

/-- 45_commands.md R175; 60_exceptions.md R194. -/
theorem test_genDual :
    outcomeOf (session .nonLinear) 0x02 = some (0, true, true, .genAB) ∧
    outcomeOf State.reset 0x02 = some (3, false, false, .idle) := ⟨rfl, rfl⟩

/-- 45_commands.md R177; 60_exceptions.md R195. -/
theorem test_genSingle :
    outcomeOf (session .linear) 0x03 = some (0, true, true, .genS) ∧
    outcomeOf (session .nonLinear) 0x03 = some (4, false, true, .idle) := ⟨rfl, rfl⟩

/-- 60_exceptions.md R197. -/
theorem test_illegal : outcomeOf (session .linear) 0x12 = some (6, false, true, .idle) := rfl

/-! ### Witnesses: for each statement with hypotheses, a case that meets them -/

theorem witness_IllegalBytesRejected :
    (decode 0x20).command? = none ∧ (decode 0x0F).command? = none ∧ (decode 0x12).command? = none ∧
    State.reset.busy = false ∧ (running .linear .key 0 Bank.zeroed).busy = true := by decide

theorem witness_StepRunsDecodedCommand :
    let s := driven State.reset (writePins 0x00 0x11)
    s.host = .cycle (writePins 0x00 0x11) :: [] ∧ (writePins 0x00 0x11).rst = false ∧
    (writePins 0x00 0x11).we = true ∧ (writePins 0x00 0x11).addr = 0x00 ∧
    decode (writePins 0x00 0x11).wdata = .command (.setup .nonLinear) := by decide

/-- An illegal byte. -/
theorem witness_StepRunsDecodedCommand_illegal :
    (driven State.reset (writePins 0x00 0x12)).host = .cycle (writePins 0x00 0x12) :: [] ∧
    (writePins 0x00 0x12).rst = false ∧ (writePins 0x00 0x12).we = true ∧ (writePins 0x00 0x12).addr = 0x00 ∧
    (decode (writePins 0x00 0x12).wdata).command? = none := by decide

theorem witness_NopClearsErrOnly :
    State.reset.busy = false ∧ (running .nonLinear .prime 0 Bank.zeroed).busy = true := by decide

theorem witness_SetupAcceptance :
    (loaded 0x3FFFFF).busy = false ∧ (loaded 0x3FFFFF).frameReg.extractLsb' 22 2 = 0 ∧
    (loaded 0x000000).frameReg.extractLsb' 22 2 = 0 := by decide

theorem witness_InvalidFrameRejected :
    (loaded 0x400000).busy = false ∧ (loaded 0x400000).frameReg.extractLsb' 22 2 ≠ 0 ∧
    (loaded 0xFFFFFF).frameReg.extractLsb' 22 2 ≠ 0 ∧ (loaded 0x3FFFFF).busy = false ∧
    (loaded 0x3FFFFF).frameReg.toNat ≤ 0x3FFFFF ∧ (loaded 0).frameReg.toNat ≤ 0x3FFFFF := by decide

theorem witness_GenDualAcceptance :
    (session .linear).busy = false ∧ (session .linear).ready = true ∧ (session .nonLinear).busy = false ∧
    (session .nonLinear).ready = true := by decide

theorem witness_GenSingleAcceptance :
    (session .linear).busy = false ∧ (session .linear).ready = true ∧ (session .linear).variant = .linear := by decide

theorem witness_NotReadyRejected :
    State.reset.busy = false ∧ State.reset.ready = false ∧ (loaded 0x400000).busy = false ∧
    (loaded 0x400000).frameReg.extractLsb' 22 2 ≠ 0 := by decide

theorem witness_VariantMismatchRejected :
    (session .nonLinear).busy = false ∧ (session .nonLinear).ready = true ∧
    (session .nonLinear).variant = .nonLinear := by decide

theorem witness_BusyDropsAnyWrite : (running .linear .genS 113 Bank.zeroed).busy = true := by decide

theorem witness_CommandWriteOutcomes : (session .linear).busy = false := by decide

theorem witness_CommandFrame_all_and_nop :
    (session .linear).busy = false ∧ (∃ t, exec .nop (session .linear) = .next t) ∧ (0x01 : Byte) ≠ 0x02 ∧
    (0x03 : Byte) ≠ 0x02 := ⟨rfl, ⟨_, rfl⟩, by decide, by decide⟩

theorem witness_CommandFrame_setup :
    (loaded 0).busy = false ∧ (∃ t, exec (.setup .linear) (loaded 0) = .next t) ∧
    ∀ a ∈ [(0x00 : Byte), 0x03, 0x0F, 0x1F, 0x2F, 0xA2],
      a.toNat ≠ 0x01 ∧ a.toNat ≠ 0x02 ∧ ¬(0x10 ≤ a.toNat ∧ a.toNat ≤ 0x1E) ∧ ¬(0x20 ≤ a.toNat ∧ a.toNat ≤ 0x2E) ∧
        ¬(0x30 ≤ a.toNat ∧ a.toNat ≤ 0xA1) := ⟨rfl, ⟨_, rfl⟩, by decide⟩

theorem witness_CommandFrame_genDual :
    (session .nonLinear).busy = false ∧ (∃ t, exec .genDual (session .nonLinear) = .next t) ∧
    ∀ a ∈ [(0x00 : Byte), 0x03, 0x0F, 0x1F, 0x2F, 0x30, 0xA1],
      a.toNat ≠ 0x01 ∧ a.toNat ≠ 0x02 ∧ ¬(0x10 ≤ a.toNat ∧ a.toNat ≤ 0x1E) ∧
        ¬(0x20 ≤ a.toNat ∧ a.toNat ≤ 0x2E) := ⟨rfl, ⟨_, rfl⟩, by decide⟩

theorem witness_CommandFrame_genSingle :
    (session .linear).busy = false ∧ (∃ t, exec .genSingle (session .linear) = .next t) ∧
    ∀ a ∈ [(0x00 : Byte), 0x03, 0x10, 0x2F, 0xA2],
      a.toNat ≠ 0x01 ∧ a.toNat ≠ 0x02 ∧ ¬(0x30 ≤ a.toNat ∧ a.toNat ≤ 0xA1) := ⟨rfl, ⟨_, rfl⟩, by decide⟩

theorem witness_ClockOneShiftsInFeedback :
    (forced1.getLsbD 0 = false ∧ (0 : Word1).getLsbD 0 = false ∧ (0x7FFFE : Word1).getLsbD 0 = false) ∧
    (forced2.getLsbD 0 = false ∧ (0x3FFFFE : Word2).getLsbD 0 = false) ∧
    (forced3.getLsbD 0 = false ∧ (0x7FFFFE : Word3).getLsbD 0 = false) ∧
    (forced4.getLsbD 0 = false ∧ (0x1FFFE : Word4).getLsbD 0 = false) ∧
    0 < 18 ∧ 17 < 18 ∧ 20 < 21 ∧ 21 < 22 ∧ 15 < 16 := by decide

/-- Forced values inside the mask: none, R31's, and the whole mask. -/
theorem witness_ClockKeepsMask :
    (0 : BitVec 24) &&& 0x07FFFF = 0 ∧ (0x008000 : BitVec 24) &&& 0x07FFFF = 0x008000 ∧ (0x07FFFF : BitVec 24) &&& 0x07FFFF = 0x07FFFF ∧
    (0 : BitVec 24) &&& 0x3FFFFF = 0 ∧ (0x010000 : BitVec 24) &&& 0x3FFFFF = 0x010000 ∧ (0x3FFFFF : BitVec 24) &&& 0x3FFFFF = 0x3FFFFF ∧
    (0 : BitVec 24) &&& 0x7FFFFF = 0 ∧ (0x040000 : BitVec 24) &&& 0x7FFFFF = 0x040000 ∧ (0x7FFFFF : BitVec 24) &&& 0x7FFFFF = 0x7FFFFF ∧
    (0 : BitVec 24) &&& 0x01FFFF = 0 ∧ (0x000400 : BitVec 24) &&& 0x01FFFF = 0x000400 ∧ (0x01FFFF : BitVec 24) &&& 0x01FFFF = 0x01FFFF := by
  refine ⟨?_, ?_, ?_, ?_, ?_, ?_, ?_, ?_, ?_, ?_, ?_, ?_⟩ <;> decide

/-- V12, r1 held. -/
theorem witness_TwoOrThreeAdvance :
    controlBits .linear ⟨0x100, 0, 0, 0, false⟩ = (true, false, false) ∧
    enables .linear false ⟨0x100, 0, 0, 0, false⟩ = (false, true, true) ∧
    controlBits .nonLinear ⟨0, 0, 0, 0x408, false⟩ = (true, true, false) ∧
    enables .nonLinear false ⟨0, 0, 0, 0x408, false⟩ = (true, true, false) ∧
    enables .linear false Bank.zeroed = (true, true, true) := by decide

theorem witness_KeyBitsInOrder :
    0 / 8 < 8 ∧ 63 / 8 < 8 ∧ (running .linear .key 0 Bank.zeroed).phase = .key ∧
    (running .linear .key 0 Bank.zeroed).stepNo.toNat < 64 ∧
    (running .nonLinear .key 63 Bank.zeroed).stepNo.toNat < 64 := by decide

theorem witness_FrameBitsInOrder :
    0 < 22 ∧ 21 < 22 ∧ (running .linear .frame 0 Bank.zeroed).phase = .frame ∧
    (running .linear .frame 0 Bank.zeroed).stepNo.toNat < 22 ∧
    (running .nonLinear .frame 21 Bank.zeroed).stepNo.toNat < 22 := by decide

theorem witness_ForcedBitsAfterLoadedCycle :
    let s := running .nonLinear .frame 21 Bank.zeroed
    s.phase = .frame ∧ s.stepNo = 21 ∧ s.variant = .nonLinear := by decide

theorem witness_PrimeWritesDelayOnly : (running .nonLinear .prime 0 Bank.zeroed).phase = .prime := by decide

theorem witness_SetupRunsSetupFunction :
    (loaded 0x3FFFFF).busy = false ∧ frameInRange (loaded 0x3FFFFF).frameReg = true ∧ (loaded 0x3FFFFF).host = [] ∧
    ∃ t, exec (.setup .nonLinear) (loaded 0x3FFFFF) = .next t ∧
      noResetFor (busyTime (.setup .nonLinear)) t.host = true := ⟨rfl, rfl, rfl, _, rfl, rfl⟩

theorem witness_BusyTimeIsFixed :
    ((loaded 0).busy = false ∧ ∃ t, exec (.setup .linear) (loaded 0) = .next t ∧ t.busy = true ∧
      noResetFor (busyTime (.setup .linear)) t.host = true) ∧
    ((session .nonLinear).busy = false ∧ ∃ t, exec .genDual (session .nonLinear) = .next t ∧ t.busy = true ∧
      noResetFor (busyTime .genDual) t.host = true) ∧
    ((session .linear).busy = false ∧ ∃ t, exec .genSingle (session .linear) = .next t ∧ t.busy = true ∧
      noResetFor (busyTime .genSingle) t.host = true) :=
  ⟨⟨rfl, _, rfl, rfl, rfl⟩, ⟨rfl, _, rfl, rfl, rfl⟩, rfl, _, rfl, rfl, rfl⟩

theorem witness_WaitReadsBusyTimePlusOne :
    (session .linear).busy = false ∧
    ∃ t, exec .genDual { session .linear with host := [.wait] } = .next t ∧ t.busy = true ∧ t.host = .wait :: [] ∧
      0 < busyTime .genDual ∧ 227 < busyTime .genDual := ⟨rfl, _, rfl, rfl, rfl, by decide, by decide⟩

theorem witness_NonLinearOutputIsDelayed : 0 < 1 := by decide

theorem witness_GenDualFillsBothBursts :
    (session .nonLinear).busy = false ∧ (session .nonLinear).ready = true ∧ (0 ≤ 228 ∧ 228 ≤ 228) ∧
    ∃ t, exec .genDual (session .nonLinear) = .next t ∧ noResetFor 0 t.host = true ∧ noResetFor 228 t.host = true :=
  ⟨rfl, rfl, by decide, _, rfl, rfl, rfl⟩

theorem witness_GenSingleFillsItsBurst :
    (session .linear).busy = false ∧ (session .linear).ready = true ∧ (session .linear).variant = .linear ∧
    (0 ≤ 114 ∧ 114 ≤ 114) ∧
    ∃ t, exec .genSingle (session .linear) = .next t ∧ noResetFor 0 t.host = true ∧ noResetFor 114 t.host = true :=
  ⟨rfl, rfl, rfl, by decide, _, rfl, rfl, rfl⟩

theorem witness_GenerateRunsAtomicFunction :
    (session .linear).busy = false ∧ (session .linear).ready = true ∧ (session .linear).variant = .linear ∧
    (session .linear).host = [] ∧ (∃ t, exec .genDual (session .linear) = .next t) ∧
    ∃ t, exec .genSingle (session .linear) = .next t := ⟨rfl, rfl, rfl, rfl, ⟨_, rfl⟩, _, rfl⟩

theorem witness_cell_and_byte_numbers :
    (0 < 114 ∧ 113 < 114) ∧ (0 ≤ 14 ∧ 14 ≤ 14 ∧ 0 ≤ 7 ∧ 7 ≤ 7) ∧ (8 * 14 + 1 ≤ 113 ∧ ¬8 * 14 + 2 ≤ 113) ∧
    (0 < 3 ∧ 2 < 3) ∧ 0 < 8 ∧ 7 < 8 := by decide

theorem witness_ReservedAndReadOnlyOffsetsAreInert :
    (∀ a ∈ [(0x03 : Byte), 0x07, 0x1F, 0x2F, 0xA2, 0xFF],
      a.toNat = 0x03 ∨ a.toNat = 0x07 ∨ a.toNat = 0x1F ∨ a.toNat = 0x2F ∨ 0xA2 ≤ a.toNat) ∧
    ∀ a ∈ [(0x01 : Byte), 0x02, 0x10, 0xFF], a.toNat = 0x01 ∨ a.toNat = 0x02 ∨ 0x10 ≤ a.toNat := by decide

/-- Two states that differ in the bank and the sequencer's position. -/
theorem witness_HiddenStateIsNotReadable :
    SameVisible (running .linear .key 0 Bank.zeroed) (running .linear .mix 99 ⟨1, 2, 3, 4, true⟩) :=
  ⟨rfl, rfl, rfl, rfl, rfl, rfl, rfl, rfl⟩

theorem witness_WriteLeavesOtherOffsets : (0x04 : Byte) ≠ 0x00 ∧ (0x05 : Byte) ≠ 0x04 := by decide

theorem witness_ReadsHaveNoSideEffect :
    (driven State.reset (readPins 0x05)).host = .cycle (readPins 0x05) :: [] ∧
    { State.reset with host := [.cycle (readPins 0x05), .cycle (readPins 0x05)] }.busy = false := by decide

/-- The hypotheses of the first clause of HostWriteAndMicroStepAreDisjoint. -/
def plainCycle (s : State) : Prop := s.pins.rst = false ∧ ¬(s.pins.we = true ∧ s.pins.addr = 0x00)

/-- A write while BUSY = 1, a write while BUSY = 0, a write just above CMD, a read of CMD, a WAIT, and an idle host. -/
theorem witness_HostWriteAndMicroStepAreDisjoint :
    plainCycle (driven (running .linear .key 3 Bank.zeroed) (writePins 0x08 0xFF)) ∧
    plainCycle (driven (session .linear) (writePins 0x06 0x3F)) ∧
    plainCycle (driven (session .linear) (writePins 0x01 0xFF)) ∧
    plainCycle (driven (session .linear) (readPins 0x00)) ∧
    plainCycle { session .linear with host := [.wait] } ∧
    plainCycle (running .linear .key 3 Bank.zeroed) := by
  unfold plainCycle
  exact ⟨⟨rfl, by decide⟩, ⟨rfl, by decide⟩, ⟨rfl, by decide⟩, ⟨rfl, by decide⟩, ⟨rfl, by decide⟩, ⟨rfl, by decide⟩⟩

theorem witness_HostWriteAndMicroStepAreDisjoint_forms :
    (running .linear .key 3 Bank.zeroed).busy = true ∧ (session .linear).busy = false ∧
    (driven State.reset idlePins).host = .cycle idlePins :: [] ∧
    { session .linear with host := [.wait] }.host = .wait :: [] ∧ (session .linear).host = [] := by decide

theorem witness_UnspecifiedReadDataIsFree :
    (writePins 0x00 0x02).rst = false ∧ (writePins 0x00 0x02).we = true ∧
    (driven State.reset resetPins).host = .cycle resetPins :: [] ∧ resetPins.rst = true := by decide

theorem witness_UnspecifiedReadDataIsFree_idle :
    (driven State.reset idlePins).host = .cycle idlePins :: [] ∧ idlePins.rst = false ∧ idlePins.we = false ∧
    idlePins.re = false ∧ (running .linear .key 3 Bank.zeroed).host = [] := by decide

theorem witness_LoadLinesLoadOperands :
    { State.reset with host := expandLine (.ldKey (Vector.replicate 8 0x12)) }.host =
      expandLine (.ldKey (Vector.replicate 8 0x12)) ++ [] ∧
    { State.reset with host := expandLine (.ldFrame 0xFFFFFF) }.host = expandLine (.ldFrame 0xFFFFFF) ++ [] := by
  decide

theorem witness_ResetIsConstant :
    (driven (running .linear .genBA 7 Bank.zeroed) resetPins).host = .cycle resetPins :: [] ∧ resetPins.rst = true := by
  decide

theorem witness_StepKeepsInvariant : (session .linear).Inv ∧ ∃ t, step (session .linear) = .next t :=
  ⟨⟨rfl, by decide, by decide, by decide, by decide, by decide, fun _ => ⟨rfl, rfl⟩, by decide, by decide, by decide,
    (fun h => by cases h), (fun h => by cases h), (fun h => by cases h)⟩, _, rfl⟩

theorem witness_ReservedErrCodesNeverWritten :
    State.reset.err ≠ 2 ∧ State.reset.err ≠ 7 ∧ ∃ t, step State.reset = .next t := ⟨by decide, by decide, _, rfl⟩

theorem witness_OnlyCommandWritesChangeErr :
    ∃ t, step (driven State.reset (writePins 0x00 0xFF)) = .next t ∧
      t.err ≠ (driven State.reset (writePins 0x00 0xFF)).err :=
  ⟨_, rfl, by show (6 : BitVec 3) ≠ 0; decide⟩

theorem witness_OnlyAcceptedSetupLoadsLatches :
    ∃ t, step (driven State.reset (writePins 0x00 0x11)) = .next t ∧
      (driven State.reset (writePins 0x00 0x11)).pins.rst = false ∧
      t.variant ≠ (driven State.reset (writePins 0x00 0x11)).variant :=
  ⟨_, rfl, rfl, by show Variant.nonLinear ≠ Variant.linear; decide⟩

theorem witness_ReadyFollowsSetup_rises :
    (∃ t, step (running .linear .mix 99 Bank.zeroed) = .next t ∧
      (running .linear .mix 99 Bank.zeroed).ready = false ∧ t.ready = true) ∧
    ∃ t, step (running .nonLinear .prime 0 Bank.zeroed) = .next t ∧
      (running .nonLinear .prime 0 Bank.zeroed).ready = false ∧ t.ready = true :=
  ⟨⟨_, rfl, rfl, rfl⟩, _, rfl, rfl, rfl⟩

theorem witness_ReadyFollowsSetup_falls :
    (∃ t, step (driven (session .linear) resetPins) = .next t ∧ (session .linear).ready = true ∧ t.ready = false) ∧
    ∃ t, step (driven (session .linear) (writePins 0x00 0x01)) = .next t ∧ (session .linear).ready = true ∧
      t.ready = false :=
  ⟨⟨_, rfl, rfl, rfl⟩, _, rfl, rfl, rfl⟩

theorem witness_MicroStepFrame :
    (running .linear .genAB 5 Bank.zeroed).variant = .linear ∧ (running .linear .genAB 5 Bank.zeroed).phase ≠ .prime ∧
    (running .linear .genAB 5 Bank.zeroed).phase ≠ .genBA ∧ (running .linear .genAB 5 Bank.zeroed).phase ≠ .genS ∧
    4 ≠ (running .linear .genAB 5 Bank.zeroed).stepNo.toNat ∧
    6 ≠ (running .linear .genAB 5 Bank.zeroed).stepNo.toNat := by decide

/-- Two hosts: one idle, one that writes to CMD. -/
theorem witness_RunningCommandIgnoresHost :
    let s := running .linear .key 0 Bank.zeroed
    SameCommand s (driven s (writePins 0x00 0x02)) ∧ (∀ k, k < 1 → (microRun k s).busy = true) ∧
    noResetFor 1 s.host = true ∧ noResetFor 1 (driven s (writePins 0x00 0x02)).host = true := by
  refine ⟨rfl, fun k hk => ?_, rfl, rfl⟩
  have : k = 0 := by omega
  subst this; rfl

end Sys2Proof.Tests
end

section
/-! PROOFS. The rules of the window, of the micro-step and of the step that the statements of 10_state.md rest on; the
invariant, field by field; then the statements. -/

namespace Sys2Proof.Machine

/-! ### The window, offset by offset -/

theorem windowRead_status (s : State) : windowRead s 0x01 = statusByte s := rfl

theorem windowRead_err (s : State) : windowRead s 0x02 = errByte s := rfl

theorem windowRead_frame (s : State) {j : Nat} (hj : j < 3) :
    windowRead s (BitVec.ofNat 8 (4 + j)) = frameByte s.frameReg j := by
  interval_cases j <;> rfl

theorem windowStore_frame (v : Byte) (s : State) {j : Nat} (hj : j < 3) :
    windowStore (BitVec.ofNat 8 (4 + j)) v s = s.storeFrame j v := by
  interval_cases j <;> rfl

theorem windowStore_key (v : Byte) (s : State) {i : Nat} (hi : i < 8) :
    windowStore (BitVec.ofNat 8 (8 + i)) v s = s.storeKey i v := by
  interval_cases i <;> rfl

/-- Between the named offsets, and after the last one, nothing is read. -/
theorem windowRead_unmapped (s : State) (a : Byte)
    (h : a.toNat = 0x03 ∨ (0x07 ≤ a.toNat ∧ a.toNat ≤ 0x0F) ∨ a.toNat = 0x1F ∨ a.toNat = 0x2F ∨ 0xA2 ≤ a.toNat) :
    windowRead s a = 0 := by
  unfold windowRead
  dsimp only
  iterate 6 rw [if_neg (by omega)]

/-- Only FRAME0-2 and KEY0-7 store. -/
theorem windowStore_inert (a v : Byte) (s : State) (hframe : ¬(0x04 ≤ a.toNat ∧ a.toNat ≤ 0x06))
    (hkey : ¬(0x08 ≤ a.toNat ∧ a.toNat ≤ 0x0F)) : windowStore a v s = s := by
  unfold windowStore
  dsimp only
  rw [if_neg hframe, if_neg hkey]

/-- FRAMEj reads back the byte stored there. -/
theorem frameByte_setFrameByte (f : BitVec 24) (v : Byte) {j : Nat} (hj : j < 3) :
    frameByte (setFrameByte f j v) j = v := by
  apply BitVec.eq_of_getLsbD_eq
  intro i hi
  have hbit := setFrameByte_bit f v j hj (8 * j + i) (by omega)
  rw [if_pos (by omega), show (8 * j + i) % 8 = i by omega] at hbit
  rw [frameByte, BitVec.getLsbD_extractLsb', hbit, decide_eq_true hi, Bool.true_and]

theorem statusByte_fields (s : State) :
    (statusByte s).getLsbD 0 = s.busy ∧ (statusByte s).getLsbD 1 = s.ready ∧
      (statusByte s).getLsbD 2 = decide (s.variant = .nonLinear) ∧ (statusByte s).extractLsb' 3 5 = 0 := by
  unfold statusByte
  cases s.busy <;> cases s.ready <;> cases s.variant <;> decide

theorem errByte_fields (s : State) : (errByte s).extractLsb' 0 3 = s.err ∧ (errByte s).extractLsb' 3 5 = 0 := by
  unfold errByte
  exact ⟨BitVec.extractLsb'_append_eq_right, BitVec.extractLsb'_append_eq_left⟩

/-! ### The micro-step's move -/

/-- The phase that follows the last step of a phase (10_state.md R38; 43_key_setup.md R136; 44_keystream.md R153). -/
def nextPhase : Variant → Phase → Phase
  | _, .key => .frame
  | _, .frame => .mix
  | .nonLinear, .mix => .prime
  | _, .genAB => .genBA
  | _, _ => .idle

/-- The phases of a running SETUP. -/
abbrev setupPhases : List Phase := [.key, .frame, .mix, .prime]

/-- The phases of a running burst. -/
abbrev genPhases : List Phase := [.genAB, .genBA, .genS]

/-- Whether the end of this phase is the end of a SETUP. -/
def endsSetup (v : Variant) (p : Phase) : Bool := decide (p ∈ setupPhases ∧ nextPhase v p = .idle)

/-- How the sequencer's position changes from `s` to `t` in a micro-step of a running command. -/
inductive Moves (s t : State) : Prop where
  /-- STEP counts on within the phase. -/
  | counts (hlast : ¬(s.phase = .prime ∨ s.stepNo.toNat + 1 = phaseSteps s.phase)) (hphase : t.phase = s.phase)
      (hstep : t.stepNo = s.stepNo + 1) (hbusy : t.busy = s.busy) (hready : t.ready = s.ready)
  /-- The phase's last step: the next phase begins, or the command ends. -/
  | finishes (hlast : s.phase = .prime ∨ s.stepNo.toNat + 1 = phaseSteps s.phase)
      (hphase : t.phase = nextPhase s.variant s.phase) (hstep : t.stepNo = 0)
      (hbusy : t.busy = (s.busy && decide (t.phase ≠ .idle))) (hready : t.ready = (s.ready || endsSetup s.variant s.phase))

theorem microStep_idle {s : State} (h : s.phase = .idle) : s.microStep = s := by
  unfold State.microStep; rw [h]

/-- The position after a micro-step, the same way for every phase of a running command. -/
theorem microStep_position_running (s : State) (h : s.phase ≠ .idle) :
    (s.microStep.phase, s.microStep.stepNo, s.microStep.busy, s.microStep.ready) =
      if s.phase = .prime ∨ s.stepNo.toNat + 1 = phaseSteps s.phase then
        (nextPhase s.variant s.phase, 0, s.busy && decide (nextPhase s.variant s.phase ≠ .idle),
          s.ready || endsSetup s.variant s.phase)
      else (s.phase, s.stepNo + 1, s.busy, s.ready) := by
  rw [microStep_position]
  cases hp : s.phase with
  | idle => exact absurd hp h
  | mix => cases s.variant <;> simp [phaseSteps, nextPhase, endsSetup, mixCycles]
  | key | frame | prime | genAB | genBA | genS =>
    simp [phaseSteps, nextPhase, endsSetup, keyBits, frameBits, burstBits]

theorem microStep_moves (s : State) (h : s.phase ≠ .idle) : Moves s s.microStep := by
  have hpos := microStep_position_running s h
  split at hpos
  next hlast =>
    simp only [Prod.mk.injEq] at hpos
    obtain ⟨hphase, hstep, hbusy, hready⟩ := hpos
    exact .finishes hlast hphase hstep (by rw [hbusy, hphase]) hready
  next hlast =>
    simp only [Prod.mk.injEq] at hpos
    obtain ⟨hphase, hstep, hbusy, hready⟩ := hpos
    exact .counts hlast hphase hstep hbusy hready

theorem setup_of_nextPhase {v : Variant} {p : Phase} (h : nextPhase v p ∈ setupPhases) :
    p ∈ setupPhases ∧ p ≠ .prime := by
  revert h; cases v <;> cases p <;> decide

theorem gen_of_nextPhase {v : Variant} {p : Phase} (h : nextPhase v p ∈ genPhases) : p ∈ genPhases := by
  revert h; cases v <;> cases p <;> decide

theorem prime_of_nextPhase {v : Variant} {p : Phase} (h : nextPhase v p = .prime) : v = .nonLinear := by
  revert h; cases v <;> cases p <;> decide

theorem nextPhase_ne_genAB (v : Variant) (p : Phase) : nextPhase v p ≠ .genAB := by
  cases v <;> cases p <;> decide

theorem nextPhase_ne_genS (v : Variant) (p : Phase) : nextPhase v p ≠ .genS := by
  cases v <;> cases p <;> decide

theorem genAB_of_nextPhase {v : Variant} {p : Phase} (h : nextPhase v p = .genBA) : p = .genAB := by
  revert h; cases v <;> cases p <;> decide

theorem endsSetup_iff (v : Variant) (p : Phase) :
    endsSetup v p = true ↔ (p = .mix ∧ v = .linear) ∨ p = .prime := by
  cases v <;> cases p <;> decide

theorem not_endsSetup {v : Variant} {p : Phase} (h : nextPhase v p ≠ .idle) : endsSetup v p = false :=
  decide_eq_false fun he => h he.2

theorem phaseSteps_pos (p : Phase) : 0 < phaseSteps p := by cases p <;> decide

theorem phaseSteps_le (p : Phase) : phaseSteps p ≤ 114 := by cases p <;> decide

/-- A phase other than IDLE is reached by counting on in it, or from the phase before it. -/
theorem microStep_reaches {s : State} {p : Phase} (hp : s.microStep.phase = p) (hne : p ≠ .idle) :
    (s.phase = p ∧ s.microStep.stepNo = s.stepNo + 1) ∨ nextPhase s.variant s.phase = p := by
  have hrun : s.phase ≠ .idle := fun h => hne (by rw [← hp, microStep_idle h, h])
  cases microStep_moves s hrun with
  | counts _ hphase hstep => exact .inl ⟨hphase.symm.trans hp, hstep⟩
  | finishes _ hphase => exact .inr (hphase.symm.trans hp)

/-- A SETUP that goes on was a SETUP before, in no PRIME, and keeps READY. -/
theorem setup_before_microStep {s : State} (h : s.microStep.phase ∈ setupPhases) :
    s.phase ∈ setupPhases ∧ s.phase ≠ .prime ∧ s.microStep.ready = s.ready := by
  have hrun : s.phase ≠ .idle := fun hi => by
    rw [microStep_idle hi, hi] at h
    exact absurd h (by decide)
  cases microStep_moves s hrun with
  | counts hlast hphase _ _ hready =>
    exact ⟨hphase ▸ h, fun hprime => hlast (.inl hprime), hready⟩
  | finishes _ hphase _ _ hready =>
    rw [hphase] at h
    obtain ⟨hsetup, hprime⟩ := setup_of_nextPhase h
    have hgoes : nextPhase s.variant s.phase ≠ .idle := fun hi => absurd (hi ▸ h) (by decide)
    rw [not_endsSetup hgoes, Bool.or_false] at hready
    exact ⟨hsetup, hprime, hready⟩

/-- A burst that goes on was a burst before. -/
theorem gen_before_microStep {s : State} (h : s.microStep.phase ∈ genPhases) : s.phase ∈ genPhases := by
  have hne : s.microStep.phase ≠ .idle := fun hi => absurd (hi ▸ h) (by decide)
  rcases microStep_reaches rfl hne with ⟨hphase, _⟩ | hnext
  · rw [hphase]
    exact h
  · exact gen_of_nextPhase (hnext ▸ h)

/-! ### What a micro-step leaves unchanged -/

@[simp] theorem microStep_err (s : State) : s.microStep.err = s.err :=
  microStep_keeps State.err s fun _ _ _ _ _ _ _ _ => rfl
@[simp] theorem microStep_variant (s : State) : s.microStep.variant = s.variant :=
  microStep_keeps State.variant s fun _ _ _ _ _ _ _ _ => rfl
@[simp] theorem microStep_keyReg (s : State) : s.microStep.keyReg = s.keyReg :=
  microStep_keeps State.keyReg s fun _ _ _ _ _ _ _ _ => rfl
@[simp] theorem microStep_frameReg (s : State) : s.microStep.frameReg = s.frameReg :=
  microStep_keeps State.frameReg s fun _ _ _ _ _ _ _ _ => rfl
@[simp] theorem microStep_klatch (s : State) : s.microStep.klatch = s.klatch :=
  microStep_keeps State.klatch s fun _ _ _ _ _ _ _ _ => rfl
@[simp] theorem microStep_flatch (s : State) : s.microStep.flatch = s.flatch :=
  microStep_keeps State.flatch s fun _ _ _ _ _ _ _ _ => rfl
@[simp] theorem microStep_host (s : State) : s.microStep.host = s.host :=
  microStep_keeps State.host s fun _ _ _ _ _ _ _ _ => rfl
@[simp] theorem microStep_rdata (s : State) : s.microStep.rdata = s.rdata :=
  microStep_keeps State.rdata s fun _ _ _ _ _ _ _ _ => rfl
@[simp] theorem microStep_draws (s : State) : s.microStep.draws = s.draws :=
  microStep_keeps State.draws s fun _ _ _ _ _ _ _ _ => rfl

@[simp] theorem keyStepBank_delay (v : Variant) (k : KeyWord) (i : Nat) (b : Bank) :
    (keyStepBank v k i b).delay = b.delay := by simp [keyStepBank]

@[simp] theorem frameStepBank_delay (v : Variant) (f : FrameWord) (i : Nat) (b : Bank) :
    (frameStepBank v f i b).delay = b.delay := by simp [frameStepBank]

@[simp] theorem keyStepBank_linear_r4 (k : KeyWord) (i : Nat) (b : Bank) : (keyStepBank .linear k i b).r4 = b.r4 := rfl

@[simp] theorem frameStepBank_linear_r4 (f : FrameWord) (i : Nat) (b : Bank) :
    (frameStepBank .linear f i b).r4 = b.r4 := rfl

theorem genStep_linear_bank (b : Bank) : (genStep .linear b).2 = clock .linear false false b := rfl

/-- In the Linear variant r4 and DELAY are not touched (10_state.md R24, R25). -/
theorem microStep_linear_r4_delay (s : State) (hv : s.variant = .linear) (hp : s.phase ≠ .prime) :
    s.microStep.bank.r4 = s.bank.r4 ∧ s.microStep.bank.delay = s.bank.delay := by
  rw [microStep_bank, hv]
  cases h : s.phase with
  | prime => exact absurd h hp
  | idle | key | frame | mix | genAB | genBA | genS => simp [genStep_linear_bank]

/-- SETUP writes DELAY in PRIME only (43_key_setup.md R136, R137). -/
theorem microStep_setup_delay (s : State) (hs : s.phase ∈ setupPhases) (hp : s.phase ≠ .prime) :
    s.microStep.bank.delay = s.bank.delay := by
  rw [microStep_bank]
  cases h : s.phase with
  | prime => exact absurd h hp
  | key | frame | mix => simp
  | idle | genAB | genBA | genS => simp [h] at hs

theorem cell_microStep_abBits (s : State) (i : Nat) (h : s.phase ≠ .genAB ∨ i ≠ s.stepNo.toNat) :
    cell s.microStep.abBits i = cell s.abBits i := by
  rw [microStep_abBits]
  split
  next hp => rw [cell_storeCell, if_neg fun hi => h.elim (· hp) (· hi.1)]
  next => rfl

theorem cell_microStep_baBits (s : State) (i : Nat) (h : s.phase ≠ .genBA ∨ i ≠ s.stepNo.toNat) :
    cell s.microStep.baBits i = cell s.baBits i := by
  rw [microStep_baBits]
  split
  next hp => rw [cell_storeCell, if_neg fun hi => h.elim (· hp) (· hi.1)]
  next => rfl

theorem cell_microStep_sglBits (s : State) (i : Nat) (h : s.phase ≠ .genS ∨ i ≠ s.stepNo.toNat) :
    cell s.microStep.sglBits i = cell s.sglBits i := by
  rw [microStep_sglBits]
  split
  next hp => rw [cell_storeCell, if_neg fun hi => h.elim (· hp) (· hi.1)]
  next => rfl

/-! ### READY in a micro-step -/

/-- A micro-step never lowers READY. -/
theorem microStep_ready_of_ready (s : State) (h : s.ready = true) : s.microStep.ready = true := by
  by_cases hp : s.phase = .idle
  · rw [microStep_idle hp, h]
  · cases microStep_moves s hp with
    | counts _ _ _ _ hready => rw [hready, h]
    | finishes _ _ _ _ hready => rw [hready, h, Bool.true_or]

/-- A micro-step raises READY in the last step of a SETUP only (43_key_setup.md R138). -/
theorem microStep_ready_rises (s : State) (h : s.ready = false) (ht : s.microStep.ready = true) :
    (s.phase = .mix ∧ s.stepNo = 99 ∧ s.variant = .linear) ∨ s.phase = .prime := by
  by_cases hp : s.phase = .idle
  · rw [microStep_idle hp, h] at ht
    cases ht
  · cases microStep_moves s hp with
    | counts _ _ _ _ hready =>
      rw [hready, h] at ht
      cases ht
    | finishes hlast _ _ _ hready =>
      rw [hready, h, Bool.false_or, endsSetup_iff] at ht
      rcases ht with ⟨hmix, hlin⟩ | hprime
      · refine .inl ⟨hmix, ?_, hlin⟩
        rw [hmix] at hlast
        have hstep : s.stepNo.toNat = 99 := by simpa [phaseSteps, mixCycles] using hlast
        exact BitVec.eq_of_toNat_eq hstep
      · exact .inr hprime

/-! ### What a step can do -/

/-- What a write of `b` to CMD does to `s` while BUSY = 0. -/
inductive CommandEffect (b : Byte) (s : State) : State → Prop where
  /-- NOP, a rejected GEN command or an illegal byte: ERR and nothing else. -/
  | errOnly (e : BitVec 3) (he : e ≠ 2 ∧ e ≠ 7) : CommandEffect b s { s with err := e }
  | setupRejected (v : Variant) (hd : decode b = .command (.setup v)) :
      CommandEffect b s { s with err := 1, ready := false }
  | setupAccepted (v : Variant) (hd : decode b = .command (.setup v)) (hf : frameInRange s.frameReg = true) :
      CommandEffect b s
        { s with
          err := 0, variant := v, ready := false, busy := true, klatch := keyOperand s.keyReg
          flatch := frameOperand s.frameReg, bank := Bank.zeroed, abBits := 0, baBits := 0, sglBits := 0
          phase := .key, stepNo := 0 }
  | genDualAccepted (hr : s.ready = true) :
      CommandEffect b s { s with err := 0, busy := true, abBits := 0, baBits := 0, phase := .genAB, stepNo := 0 }
  | genSingleAccepted (hr : s.ready = true) (hv : s.variant = .linear) :
      CommandEffect b s { s with err := 0, busy := true, sglBits := 0, phase := .genS, stepNo := 0 }

theorem exec_effect (b : Byte) (i : Instr) (s : State) (hd : decode b = .command i) (hb : s.busy = false) :
    ∃ t, exec i s = .next t ∧ CommandEffect b s t := by
  rcases exec_idle_cases i s hb with ⟨_, h⟩ | ⟨v, rfl, hf, h⟩ | ⟨v, rfl, _, h⟩ | ⟨_, hr, h⟩ | ⟨_, hr, hv, h⟩ |
    ⟨_, _, _, h⟩ | ⟨_, _, h⟩
  · exact ⟨_, h, .errOnly 0 (by decide)⟩
  · exact ⟨_, h, .setupAccepted v hd (by rw [frameInRange, hf]; rfl)⟩
  · exact ⟨_, h, .setupRejected v hd⟩
  · exact ⟨_, h, .genDualAccepted hr⟩
  · exact ⟨_, h, .genSingleAccepted hr hv⟩
  · exact ⟨_, h, .errOnly 4 (by decide)⟩
  · exact ⟨_, h, .errOnly 3 (by decide)⟩

theorem commandWrite_effect (b : Byte) (s : State) (hb : s.busy = false) :
    ∃ t, commandWrite b s = .next t ∧ CommandEffect b s t := by
  rcases commandWrite_cases b s with ⟨i, hd, h⟩ | ⟨w, _, h⟩
  · rw [h]
    exact exec_effect b i s hd hb
  · exact ⟨_, h.trans (onCommand_idle _ s hb), .errOnly 6 (by decide)⟩

/-- What a step does to `s`, in the priority of 70_reset_and_hazards.md R222. -/
inductive StepEffect (s : State) : State → Prop where
  | reset (hrst : s.pins.rst = true) (h r d) : StepEffect s (State.reset.own h r d)
  /-- A command runs: its micro-step, the host's store, and ERR = 5 at a CMD write. -/
  | running (hbusy : s.busy = true) (e k f h r d)
      (he : e = s.err ∨ (e = 5 ∧ s.pins.we = true ∧ s.pins.addr = 0x00)) :
      StepEffect s (s.microStep.outside e k f h r d)
  /-- No command runs and none is written. -/
  | quiet (k f h r d) : StepEffect s (s.outside s.err k f h r d)
  | command (hbusy : s.busy = false) (hwe : s.pins.we = true) (haddr : s.pins.addr = 0x00) (h r d) (t : State)
      (heff : CommandEffect s.pins.wdata (s.own h r d) t) : StepEffect s t

theorem step_effect {s t : State} (hst : step s = .next t) : StepEffect s t := by
  cases hrst : s.pins.rst
  case true =>
    rw [step_reset s hrst] at hst
    cases hst
    exact .reset hrst _ _ _
  cases hbusy : s.busy
  case true =>
    obtain ⟨e, k, f, h, r, d, hs, he, _⟩ := step_busy s hbusy hrst
    rw [hs] at hst
    cases hst
    exact .running hbusy e k f h r d he
  by_cases hcmd : s.pins.we = true ∧ s.pins.addr = 0x00
  · obtain ⟨h, r, d, hsampled, _⟩ := sampled_eq s
    rw [step_command s hrst hcmd.1 hcmd.2, hsampled] at hst
    obtain ⟨u, hu, heff⟩ := commandWrite_effect s.pins.wdata (s.own h r d) hbusy
    rw [hu] at hst
    cases hst
    exact .command hbusy hcmd.1 hcmd.2 h r d _ heff
  · obtain ⟨k, f, h, r, d, hs⟩ := step_idle_no_command s hbusy hrst hcmd
    rw [hs] at hst
    cases hst
    exact .quiet k f h r d

/-! ### The invariant is kept -/

namespace State.Inv

/-- The invariant does not see what is outside the sequencer, apart from ERR. -/
theorem outside {s : State} (hs : s.Inv) (e k f h r d) (he : e ≠ 2 ∧ e ≠ 7) : (s.outside e k f h r d).Inv :=
  { hs with err_legal := he }

theorem reset : State.reset.Inv where
  busy_eq := rfl
  step_lt := by decide
  prime_nonLinear := by decide
  genS_linear := by decide
  setup_notReady := by decide
  gen_ready := by decide
  linear_r4_delay := by decide
  setup_delay := by decide
  err_legal := by decide
  setup_buffers := by decide
  genAB_cells h := by cases h
  genBA_cells h := by cases h
  genS_cells h := by cases h

theorem not_prime_of_linear {s : State} (hs : s.Inv) (hv : s.variant = .linear) : s.phase ≠ .prime := by
  intro hp
  rw [hs.prime_nonLinear hp] at hv
  cases hv

/-- STEP never wraps around. -/
theorem stepNo_succ {s : State} (hs : s.Inv) : (s.stepNo + 1).toNat = s.stepNo.toNat + 1 := by
  have hlt := hs.step_lt
  have hle := phaseSteps_le s.phase
  rw [BitVec.toNat_add]
  exact Nat.mod_eq_of_lt (show s.stepNo.toNat + 1 < 2 ^ 7 by omega)

theorem microStep_busy_eq {s : State} (hs : s.Inv) (hp : s.phase ≠ .idle) :
    s.microStep.busy = (s.microStep.phase != .idle) := by
  have hbusy : s.busy = true := by rw [hs.busy_eq]; exact bne_iff_ne.mpr hp
  cases microStep_moves s hp with
  | counts _ hphase _ hb _ => rw [hb, hphase, hs.busy_eq]
  | finishes _ _ _ hb _ => rw [hb, hbusy, Bool.true_and, Bool.eq_iff_iff, decide_eq_true_iff, bne_iff_ne]

theorem microStep_step_lt {s : State} (hs : s.Inv) (hp : s.phase ≠ .idle) :
    s.microStep.stepNo.toNat < phaseSteps s.microStep.phase := by
  cases microStep_moves s hp with
  | counts hlast hphase hstep _ _ =>
    have hlt := hs.step_lt
    rw [hstep, hphase, hs.stepNo_succ]
    exact lt_of_le_of_ne hlt fun he => hlast (.inr he)
  | finishes _ _ hstep _ _ =>
    rw [hstep]
    exact phaseSteps_pos _

theorem microStep_linear_bank {s : State} (hs : s.Inv) (hv : s.variant = .linear) :
    s.microStep.bank.r4 = 0 ∧ s.microStep.bank.delay = false := by
  obtain ⟨hr4, hdelay⟩ := microStep_linear_r4_delay s hv (hs.not_prime_of_linear hv)
  obtain ⟨hr4', hdelay'⟩ := hs.linear_r4_delay hv
  exact ⟨hr4.trans hr4', hdelay.trans hdelay'⟩

/-- During SETUP no micro-step writes a buffer. -/
theorem microStep_setup_buffers {s : State} (hs : s.Inv) (hp : s.phase ∈ setupPhases) :
    s.microStep.abBits = 0 ∧ s.microStep.baBits = 0 ∧ s.microStep.sglBits = 0 := by
  have hno : ∀ p ∈ genPhases, s.phase ≠ p := by
    intro p hgen he
    rw [he] at hp
    revert hp hgen
    cases p <;> decide
  rw [microStep_abBits, if_neg (hno .genAB (by decide)), microStep_baBits, if_neg (hno .genBA (by decide)),
    microStep_sglBits, if_neg (hno .genS (by decide))]
  exact hs.setup_buffers hp

theorem microStep_genAB_cells {s : State} (hs : s.Inv) (hp : s.microStep.phase = .genAB) :
    s.microStep.baBits = 0 ∧ ∀ i, s.microStep.stepNo.toNat ≤ i → cell s.microStep.abBits i = false := by
  rcases microStep_reaches hp (by decide) with ⟨hphase, hstep⟩ | hnext
  · obtain ⟨hba, hab⟩ := hs.genAB_cells hphase
    rw [hstep, hs.stepNo_succ, microStep_baBits, if_neg (by rw [hphase]; decide)]
    refine ⟨hba, fun i hi => ?_⟩
    rw [cell_microStep_abBits s i (.inr (by omega))]
    exact hab i (by omega)
  · exact absurd hnext (nextPhase_ne_genAB _ _)

theorem microStep_genBA_cells {s : State} (hs : s.Inv) (hp : s.microStep.phase = .genBA) :
    ∀ i, s.microStep.stepNo.toNat ≤ i → cell s.microStep.baBits i = false := by
  intro i hi
  rcases microStep_reaches hp (by decide) with ⟨hphase, hstep⟩ | hnext
  · rw [hstep, hs.stepNo_succ] at hi
    rw [cell_microStep_baBits s i (.inr (by omega))]
    exact hs.genBA_cells hphase i (by omega)
  · have hAB := genAB_of_nextPhase hnext
    rw [cell_microStep_baBits s i (.inl (by rw [hAB]; decide)), (hs.genAB_cells hAB).1]
    exact cell_zero i

theorem microStep_genS_cells {s : State} (hs : s.Inv) (hp : s.microStep.phase = .genS) :
    ∀ i, s.microStep.stepNo.toNat ≤ i → cell s.microStep.sglBits i = false := by
  intro i hi
  rcases microStep_reaches hp (by decide) with ⟨hphase, hstep⟩ | hnext
  · rw [hstep, hs.stepNo_succ] at hi
    rw [cell_microStep_sglBits s i (.inr (by omega))]
    exact hs.genS_cells hphase i (by omega)
  · exact absurd hnext (nextPhase_ne_genS _ _)

/-- The micro-step of a running command keeps the invariant. -/
theorem microStep_running {s : State} (hs : s.Inv) (hp : s.phase ≠ .idle) : s.microStep.Inv where
  busy_eq := hs.microStep_busy_eq hp
  step_lt := hs.microStep_step_lt hp
  prime_nonLinear ht := by
    rw [microStep_variant]
    rcases microStep_reaches ht (by decide) with ⟨hphase, _⟩ | hnext
    · exact hs.prime_nonLinear hphase
    · exact prime_of_nextPhase hnext
  genS_linear ht := by
    rw [microStep_variant]
    rcases microStep_reaches ht (by decide) with ⟨hphase, _⟩ | hnext
    · exact hs.genS_linear hphase
    · exact absurd hnext (nextPhase_ne_genS _ _)
  setup_notReady ht := by
    obtain ⟨hsetup, _, hready⟩ := setup_before_microStep ht
    exact hready.trans (hs.setup_notReady hsetup)
  gen_ready ht := microStep_ready_of_ready s (hs.gen_ready (gen_before_microStep ht))
  linear_r4_delay hv := hs.microStep_linear_bank ((microStep_variant s).symm.trans hv)
  setup_delay ht := by
    obtain ⟨hsetup, hprime, _⟩ := setup_before_microStep ht
    exact (microStep_setup_delay s hsetup hprime).trans (hs.setup_delay hsetup)
  err_legal := by
    rw [microStep_err]
    exact hs.err_legal
  setup_buffers ht := hs.microStep_setup_buffers (setup_before_microStep ht).1
  genAB_cells := hs.microStep_genAB_cells
  genBA_cells := hs.microStep_genBA_cells
  genS_cells := hs.microStep_genS_cells

theorem microStep {s : State} (hs : s.Inv) : s.microStep.Inv := by
  by_cases hp : s.phase = .idle
  · rw [microStep_idle hp]
    exact hs
  · exact hs.microStep_running hp

theorem phase_idle {s : State} (hs : s.Inv) (hb : s.busy = false) : s.phase = .idle := by
  have h := hs.busy_eq
  rw [hb] at h
  simpa using h.symm

/-- Losing READY while no command runs keeps the invariant. -/
theorem notReady {s : State} (hs : s.Inv) (hb : s.busy = false) : { s with ready := false }.Inv :=
  { hs with
    setup_notReady := fun _ => rfl
    gen_ready := fun h => absurd (hs.phase_idle hb ▸ h) (by decide) }

/-- A SETUP starts with the bank and the buffers clear, whatever the state before. -/
theorem setupAccepted (v : Variant) (k f) (s : State) : ({ s with
    err := 0, variant := v, ready := false, busy := true, klatch := k, flatch := f, bank := Bank.zeroed
    abBits := 0, baBits := 0, sglBits := 0, phase := .key, stepNo := 0 } : State).Inv where
  busy_eq := rfl
  step_lt := phaseSteps_pos .key
  prime_nonLinear h := by cases h
  genS_linear h := by cases h
  setup_notReady _ := rfl
  gen_ready h := by simp at h
  linear_r4_delay _ := ⟨rfl, rfl⟩
  setup_delay _ := rfl
  err_legal := by simp
  setup_buffers _ := ⟨rfl, rfl, rfl⟩
  genAB_cells h := by cases h
  genBA_cells h := by cases h
  genS_cells h := by cases h

theorem genDualAccepted {s : State} (hs : s.Inv) (hr : s.ready = true) :
    ({ s with err := 0, busy := true, abBits := 0, baBits := 0, phase := .genAB, stepNo := 0 } : State).Inv where
  busy_eq := rfl
  step_lt := phaseSteps_pos .genAB
  prime_nonLinear h := by cases h
  genS_linear h := by cases h
  setup_notReady h := by simp at h
  gen_ready _ := hr
  linear_r4_delay := hs.linear_r4_delay
  setup_delay h := by simp at h
  err_legal := by simp
  setup_buffers h := by simp at h
  genAB_cells _ := ⟨rfl, fun i _ => cell_zero i⟩
  genBA_cells h := by cases h
  genS_cells h := by cases h

theorem genSingleAccepted {s : State} (hs : s.Inv) (hr : s.ready = true) (hv : s.variant = .linear) :
    ({ s with err := 0, busy := true, sglBits := 0, phase := .genS, stepNo := 0 } : State).Inv where
  busy_eq := rfl
  step_lt := phaseSteps_pos .genS
  prime_nonLinear h := by cases h
  genS_linear _ := hv
  setup_notReady h := by simp at h
  gen_ready _ := hr
  linear_r4_delay := hs.linear_r4_delay
  setup_delay h := by simp at h
  err_legal := by simp
  setup_buffers h := by simp at h
  genAB_cells h := by cases h
  genBA_cells h := by cases h
  genS_cells _ := fun i _ => cell_zero i

theorem withErr {s : State} (hs : s.Inv) {e : BitVec 3} (he : e ≠ 2 ∧ e ≠ 7) : { s with err := e }.Inv :=
  hs.outside e s.keyReg s.frameReg s.host s.rdata s.draws he

theorem command {b : Byte} {s t : State} (hs : s.Inv) (hb : s.busy = false) (h : CommandEffect b s t) : t.Inv := by
  cases h with
  | errOnly e he => exact hs.withErr he
  | setupRejected v _ => exact (hs.notReady hb).withErr (by decide)
  | setupAccepted v _ _ => exact setupAccepted v _ _ s
  | genDualAccepted hr => exact hs.genDualAccepted hr
  | genSingleAccepted hr hv => exact hs.genSingleAccepted hr hv

theorem own {s : State} (hs : s.Inv) (h r d) : (s.own h r d).Inv :=
  hs.outside s.err s.keyReg s.frameReg h r d hs.err_legal

end State.Inv

/-! ### The statements -/

/-- Settles O51: each effect of a step keeps the invariant. -/
theorem stepKeepsInvariant : Obligations.StepKeepsInvariant := by
  intro s t hs hst
  cases step_effect hst with
  | reset _ h r d => exact State.Inv.reset.own h r d
  | running _ e k f h r d he =>
    refine hs.microStep.outside e k f h r d ?_
    rcases he with rfl | ⟨rfl, _⟩
    · exact hs.err_legal
    · decide
  | quiet k f h r d => exact hs.outside s.err k f h r d hs.err_legal
  | command hbusy _ _ h r d _ heff => exact (hs.own h r d).command hbusy heff

/-- Settles O40: at these offsets the window is the bytes of FRAME_REG. -/
theorem frameBytesStoreAndReadBack : Obligations.FrameBytesStoreAndReadBack := by
  intro s v j hj
  rw [windowStore_frame v s hj, windowRead_frame _ hj, windowRead_frame _ hj]
  refine ⟨frameByte_setFrameByte _ v hj, setFrameByte_bit _ v j hj, rfl, ?_⟩
  exact BitVec.extractLsb'_zero

/-- Settles O41: at these offsets a store goes to KEY_REG, and no read is mapped. -/
theorem keyBytesStoreAndReadZero : Obligations.KeyBytesStoreAndReadZero := by
  intro s v i hi
  rw [windowStore_key v s hi]
  refine ⟨fun k hk => ?_, rfl, windowRead_unmapped s _ (.inr (.inl ?_)), fun k hk => ?_⟩
  · simp [Vector.getElem_setIfInBounds, eq_comm]
  · rw [BitVec.toNat_ofNat]
    omega
  · exact Vector.getElem_replicate hk

/-- Settles O43: each readable element is one the two states agree on. -/
theorem hiddenStateIsNotReadable : Obligations.HiddenStateIsNotReadable := by
  intro s t ⟨hvariant, hready, hbusy, herr, hframe, hab, hba, hsgl⟩ a
  refine windowRead_congr s t a (fun _ => ?_) (fun _ => ?_) (fun _ => hframe) (fun _ => hab) (fun _ => hba)
    (fun _ => hsgl)
  · rw [statusByte, statusByte, hvariant, hready, hbusy]
  · rw [errByte, errByte, herr]

/-- Settles O54: ERR is written by reset and by a CMD write only. -/
theorem onlyCommandWritesChangeErr : Obligations.OnlyCommandWritesChangeErr := by
  intro s t hst hne
  cases step_effect hst with
  | reset hrst => exact .inl hrst
  | running _ e _ _ _ _ _ he =>
    rcases he with rfl | ⟨_, hwe, haddr⟩
    · exact absurd rfl hne
    · exact .inr ⟨hwe, haddr⟩
  | quiet => exact absurd rfl hne
  | command _ hwe haddr => exact .inr ⟨hwe, haddr⟩

/-- Settles O55: of all effects of a step without reset, only an accepted SETUP writes VARIANT or a latch. -/
theorem onlyAcceptedSetupLoadsLatches : Obligations.OnlyAcceptedSetupLoadsLatches := by
  intro s t hst hrst hne
  cases step_effect hst with
  | reset hrst' => exact absurd hrst' (by rw [hrst]; decide)
  | running => simp [State.outside] at hne
  | quiet => simp [State.outside] at hne
  | command hbusy hwe haddr h r d _ heff =>
    cases heff with
    | setupAccepted v hd hf => exact ⟨hbusy, hwe, haddr, hd, hf, rfl, rfl⟩
    | errOnly | setupRejected | genDualAccepted | genSingleAccepted => simp [State.own] at hne

/-- Settles O56: READY rises in a micro-step only, and falls at reset and at a SETUP only. -/
theorem readyFollowsSetup : Obligations.ReadyFollowsSetup := by
  refine ⟨fun s t hst hs ht => ?_, fun s t hst hs ht => ?_⟩
  · cases step_effect hst with
    | reset => cases ht
    | running hbusy => exact ⟨hbusy, microStep_ready_rises s hs ht⟩
    | quiet => exact absurd (hs.symm.trans ht) (by decide)
    | command _ _ _ _ _ _ _ heff =>
      cases heff with
      | setupRejected | setupAccepted => cases ht
      | errOnly | genDualAccepted | genSingleAccepted => exact absurd (hs.symm.trans ht) (by decide)
  · cases step_effect hst with
    | reset hrst => exact .inl hrst
    | running => exact absurd ((microStep_ready_of_ready s hs).symm.trans ht) (by decide)
    | quiet => exact absurd (hs.symm.trans ht) (by decide)
    | command hbusy hwe haddr _ _ _ _ heff =>
      cases heff with
      | setupRejected v hd => exact .inr ⟨hbusy, hwe, haddr, v, hd⟩
      | setupAccepted v hd _ => exact .inr ⟨hbusy, hwe, haddr, v, hd⟩
      | errOnly | genDualAccepted | genSingleAccepted => exact absurd (hs.symm.trans ht) (by decide)

/-- Settles O57: the frame lemmas of the micro-step, element by element. -/
theorem microStepFrame : Obligations.MicroStepFrame := fun s =>
  ⟨microStep_err s, microStep_variant s, microStep_keyReg s, microStep_frameReg s, microStep_klatch s,
    microStep_flatch s, microStep_host s, microStep_rdata s, microStep_draws s, microStep_linear_r4_delay s,
    cell_microStep_abBits s, cell_microStep_baBits s, cell_microStep_sglBits s⟩

/-- Settles O39: the two bytes are built of these fields. -/
theorem statusAndErrFields : Obligations.StatusAndErrFields := by
  intro s
  obtain ⟨hbusy, hready, hvariant, hupper⟩ := statusByte_fields s
  obtain ⟨hcode, herrUpper⟩ := errByte_fields s
  exact ⟨hbusy, hready, hvariant, hupper, hcode, herrUpper, fun v => ⟨rfl, rfl⟩, rfl, rfl⟩

/-- Settles O42: none of these offsets is one that stores, and no read of a reserved one is mapped. -/
theorem reservedAndReadOnlyOffsetsAreInert : Obligations.ReservedAndReadOnlyOffsetsAreInert := by
  intro s a v
  refine ⟨fun h => ⟨windowRead_unmapped s a ?_, windowStore_inert a v s ?_ ?_⟩,
    fun h => windowStore_inert a v s ?_ ?_⟩ <;> omega

/-- Settles O49, by the definition of the reset state. -/
theorem resetValues : Obligations.ResetValues :=
  ⟨rfl, rfl, rfl, rfl, rfl, rfl, rfl, rfl, rfl, rfl, rfl, rfl, rfl, rfl⟩

/-- Settles O52: IDLE with READY = 0 and everything clear. -/
theorem resetHasInvariant : Obligations.ResetHasInvariant := State.Inv.reset

end Sys2Proof.Machine
end

section
/-! PROOFS. The rules of the window's access that the statements of 20_memory.md rest on: where the buffers are read,
what a store leaves, and what a cycle without reset makes of the state; then the statements. -/

namespace Sys2Proof.Machine

/-! ### The buffers in the window -/

theorem windowRead_abBits (s : State) {j : Nat} (hj : j ≤ 14) :
    windowRead s (BitVec.ofNat 8 (0x10 + j)) = pack s.abBits j := by
  interval_cases j <;> rfl

theorem windowRead_baBits (s : State) {j : Nat} (hj : j ≤ 14) :
    windowRead s (BitVec.ofNat 8 (0x20 + j)) = pack s.baBits j := by
  interval_cases j <;> rfl

theorem windowRead_sglBits (s : State) {i : Nat} (hi : i < 114) :
    windowRead s (BitVec.ofNat 8 (0x30 + i)) = (BitVec.ofBool (cell s.sglBits i)).setWidth 8 := by
  have hoffset : (BitVec.ofNat 8 (0x30 + i)).toNat = 0x30 + i := by
    rw [BitVec.toNat_ofNat]
    omega
  unfold windowRead
  rw [hoffset]
  dsimp only
  iterate 5 rw [if_neg (by omega)]
  rw [if_pos (by omega), Nat.add_sub_cancel_left]

/-- PACK is MSB-first (44_keystream.md R154). From 114 on a burst has no cell, so both sides are 0 there. -/
theorem pack_bit (bits : Burst) (j : Nat) {b : Nat} (hb : b ≤ 7) :
    (pack bits j).getLsbD (7 - b) = cell bits (8 * j + b) := by
  have hcell : ∀ k, (if k ≤ 113 then cell bits k else false) = cell bits k := fun k => by
    split
    · rfl
    · exact (BitVec.getLsbD_of_ge bits k (by omega)).symm
  simp only [pack, hcell, BitVec.getLsbD_append, BitVec.getLsbD_ofBool]
  interval_cases b <;> simp

/-! ### A store and the other offsets -/

/-- All that a store at an offset can do, whatever the state and the byte. -/
theorem windowStore_cases (a : Byte) :
    (∃ j, j < 3 ∧ a.toNat = 4 + j ∧ ∀ v s, windowStore a v s = s.storeFrame j v) ∨
    (∃ i, i < 8 ∧ a.toNat = 8 + i ∧ ∀ v s, windowStore a v s = s.storeKey i v) ∨
    ∀ v s, windowStore a v s = s := by
  by_cases hframe : 0x04 ≤ a.toNat ∧ a.toNat ≤ 0x06
  · exact .inl ⟨a.toNat - 4, by omega, by omega, fun _ _ => if_pos hframe⟩
  by_cases hkey : 0x08 ≤ a.toNat ∧ a.toNat ≤ 0x0F
  · exact .inr (.inl ⟨a.toNat - 8, by omega, by omega, fun _ _ => (if_neg hframe).trans (if_pos hkey)⟩)
  · exact .inr (.inr fun v s => windowStore_inert a v s hframe hkey)

/-- A write of one byte of FRAME_REG leaves the others. -/
theorem frameByte_setFrameByte_of_ne (f : BitVec 24) (v : Byte) {j k : Nat} (hj : j < 3) (hk : k < 3) (hne : k ≠ j) :
    frameByte (setFrameByte f j v) k = frameByte f k := by
  apply BitVec.eq_of_getLsbD_eq
  intro i hi
  have hbit := setFrameByte_bit f v j hj (8 * k + i) (by omega)
  rw [if_neg (by omega)] at hbit
  rw [frameByte, frameByte, BitVec.getLsbD_extractLsb', BitVec.getLsbD_extractLsb', hbit]

theorem windowRead_storeFrame_of_ne (s : State) (v b : Byte) {j : Nat} (hj : j < 3) (hne : b.toNat ≠ 4 + j) :
    windowRead (s.storeFrame j v) b = windowRead s b := by
  by_cases hframe : 0x04 ≤ b.toNat ∧ b.toNat ≤ 0x06
  · obtain ⟨k, hk⟩ : ∃ k, b.toNat = 4 + k := ⟨b.toNat - 4, by omega⟩
    obtain rfl : b = BitVec.ofNat 8 (4 + k) := by rw [← hk, BitVec.ofNat_toNat, BitVec.setWidth_eq]
    have hk3 : k < 3 := by omega
    rw [windowRead_frame _ hk3, windowRead_frame s hk3]
    exact frameByte_setFrameByte_of_ne _ v hj hk3 (by omega)
  · exact windowRead_congr _ s b (fun _ => rfl) (fun _ => rfl) (fun h => absurd h hframe) (fun _ => rfl) (fun _ => rfl)
      fun _ => rfl

/-- KEY_REG is not readable (10_state.md R49). -/
theorem windowRead_storeKey (s : State) (i : Nat) (v b : Byte) : windowRead (s.storeKey i v) b = windowRead s b := rfl

/-! ### A store and the micro-step -/

/-- The host's registers are no input of a micro-step, which keeps them. -/
theorem microStep_withOperands (s : State) (k : Vector Byte 8) (f : BitVec 24) :
    { s with keyReg := k, frameReg := f }.microStep = { s.microStep with keyReg := k, frameReg := f } := by
  calc { s with keyReg := k, frameReg := f }.microStep
      = s.microStep.outside s.err k f s.host s.rdata s.draws := microStep_outside s.err k f s.host s.rdata s.draws s
    _ = { s.microStep with keyReg := k, frameReg := f } := by simp [State.outside]

theorem storeFrame_microStep (s : State) (j : Nat) (v : Byte) :
    s.microStep.storeFrame j v = (s.storeFrame j v).microStep := by
  rw [State.storeFrame, State.storeFrame, microStep_frameReg]
  simpa using (microStep_withOperands s s.keyReg (setFrameByte s.frameReg j v)).symm

theorem storeKey_microStep (s : State) (i : Nat) (v : Byte) :
    s.microStep.storeKey i v = (s.storeKey i v).microStep := by
  rw [State.storeKey, State.storeKey, microStep_keyReg]
  simpa using (microStep_withOperands s (s.keyReg.setIfInBounds i v) s.frameReg).symm

theorem windowStore_microStep (a v : Byte) (s : State) :
    windowStore a v s.microStep = (windowStore a v s).microStep := by
  rcases windowStore_cases a with ⟨j, _, _, hstore⟩ | ⟨i, _, _, hstore⟩ | hstore
  · rw [hstore, hstore, storeFrame_microStep]
  · rw [hstore, hstore, storeKey_microStep]
  · rw [hstore, hstore]

/-! ### The cycle of the host and the CORE -/

theorem sequencerEdge_busy {s : State} (hb : s.busy = true) : s.sequencerEdge = s.microStep := if_pos hb

theorem sequencerEdge_idle {s : State} (hb : s.busy = false) : s.sequencerEdge = s := by
  rw [State.sequencerEdge, hb, if_neg (by decide)]

theorem pins_of_wait {s : State} {rest : List HostAction} (h : s.host = .wait :: rest) :
    s.pins = readPins offsetStatus := by
  rw [State.pins, h]
  rfl

theorem pins_of_done {s : State} (h : s.host = []) : s.pins = idlePins := by
  rw [State.pins, h]

theorem sameCore_own (s : State) (h : List HostAction) (r : Byte) (d : Nat) : SameCore (s.own h r d) s := rfl

theorem windowRead_own (s : State) (h : List HostAction) (r : Byte) (d : Nat) (a : Byte) :
    windowRead (s.own h r d) a = windowRead s a := rfl

/-- Up to its edge a cycle changes no element of the CORE. -/
theorem sampled_sameCore (s : State) : SameCore s.sampled s := by
  obtain ⟨h, r, d, hs, _⟩ := sampled_eq s
  rw [hs]
  exact sameCore_own s h r d

/-- In a cycle without reset and without a CMD write the CORE becomes what the plain edge makes of it. -/
theorem step_no_command_sameCore (s : State) (hrst : s.pins.rst = false)
    (hcmd : ¬(s.pins.we = true ∧ s.pins.addr = 0x00)) : ∃ t, step s = .next t ∧ SameCore t (plainEdge s.pins s) := by
  obtain ⟨h, r, d, hs, _⟩ := sampled_eq s
  refine ⟨_, step_no_command s hrst hcmd, ?_⟩
  rw [hs, plainEdge_own]
  exact sameCore_own _ h r d

theorem sampled_read {s : State} {a : Byte} {rest : List HostAction} (h : s.host = .cycle (readPins a) :: rest) :
    s.sampled = s.own rest (windowRead s a) s.draws := sampled_of_cycle s (readPins a) rest h

/-- A step that reads: the sequencer's part of the edge, and the host's. -/
theorem step_read {s : State} {a : Byte} {rest : List HostAction} (h : s.host = .cycle (readPins a) :: rest) :
    step s = .next (s.sequencerEdge.own rest (windowRead s a) s.draws) := by
  have hpins := pins_of_cycle s (readPins a) rest h
  rw [step_no_command s (by simp [hpins, readPins]) (by simp [hpins, readPins]), hpins,
    sampled_read h, plainEdge_own]
  rfl

theorem commandWrite_of_decode {v : Byte} {i : Instr} (hd : decode v = .command i) (s : State) :
    commandWrite v s = exec i s := by
  rw [commandWrite, hd]

/-! ### The statements -/

/-- Settles O46: the host's write and the micro-step touch different elements. -/
theorem hostWriteAndMicroStepAreDisjoint : Obligations.HostWriteAndMicroStepAreDisjoint := by
  refine ⟨step_no_command_sameCore, fun s => ⟨sequencerEdge_busy, sequencerEdge_idle⟩, pins_of_cycle,
    fun s rest h => ?_, fun s h => ?_, fun s a v => windowStore_microStep a v s⟩
  · rw [pins_of_wait h]
    exact ⟨rfl, rfl⟩
  · rw [pins_of_done h]
    exact ⟨rfl, rfl⟩

/-- Settles O45: a read changes the model's own fields only. -/
theorem readsHaveNoSideEffect : Obligations.ReadsHaveNoSideEffect := by
  refine ⟨fun s a rest h => ⟨_, step_read h, rfl, sameCore_own _ _ _ _, rfl⟩, fun s a rest hb h => ?_⟩
  have hfirst : step s = .next (s.own (.cycle (readPins a) :: rest) (windowRead s a) s.draws) := by
    rw [step_read h, sequencerEdge_idle hb]
  refine ⟨_, _, hfirst, step_read rfl, ?_, windowRead_own _ _ _ _ a⟩
  rw [sequencerEdge_own, sequencerEdge_idle hb]
  exact sameCore_own s _ _ _

/-- Settles O44: a store writes one byte of FRAME_REG, or KEY_REG, which no offset shows. -/
theorem writeLeavesOtherOffsets : Obligations.WriteLeavesOtherOffsets := by
  intro s a b v _ hne
  rcases windowStore_cases a with ⟨j, hj, ha, hstore⟩ | ⟨i, _, _, hstore⟩ | hstore
  · rw [hstore]
    exact windowRead_storeFrame_of_ne s v b hj fun hb => hne (BitVec.eq_of_toNat_eq (hb.trans ha.symm))
  · rw [hstore, windowRead_storeKey]
  · rw [hstore]

/-- Settles O38: bit i is bit i mod 8, from the top, of byte i div 8. -/
theorem burstReadback : Obligations.BurstReadback := by
  intro s i hi
  have hbyte : i / 8 ≤ 14 := by omega
  have hbit : i % 8 ≤ 7 := by omega
  rw [windowRead_abBits s hbyte, windowRead_baBits s hbyte, windowRead_sglBits s hi, pack_bit _ _ hbit,
    pack_bit _ _ hbit, Nat.div_add_mod]
  exact ⟨rfl, rfl, by simp⟩

/-- Settles O4: the pins of the cycle are a CMD write. -/
theorem stepRunsDecodedCommand : Obligations.StepRunsDecodedCommand := by
  intro s p rest hhost hrst hwe haddr
  have hstep : step s = commandWrite p.wdata s.sampled := by
    have hpins := pins_of_cycle s p rest hhost
    rw [step_command s (by rw [hpins, hrst]) (by rw [hpins, hwe]) (by rw [hpins, haddr]), hpins]
  refine ⟨hstep, fun i hd => hstep.trans (commandWrite_of_decode hd s.sampled), sampled_sameCore s, ?_⟩
  rw [sampled_of_cycle s p rest hhost]

end Sys2Proof.Machine
end

section
/-! PROOFS. The rules that the statements of 30_encoding.md rest on: the decoder by the fields of a byte, the micro-steps
a running command has left, and the steps of a WAIT and of a store; then the statements. -/

namespace Sys2Proof

/-! ### The decoder, by the fields of a byte -/

/-- The three fields are the whole byte (30_encoding.md R80). -/
theorem append_fieldsOf (v : Byte) : (fieldsOf v).rsv ++ (fieldsOf v).v ++ (fieldsOf v).op = v := by
  apply BitVec.eq_of_getLsbD_eq
  intro i hi
  simp only [fieldsOf, BitVec.getLsbD_append, BitVec.getLsbD_extractLsb']
  interval_cases i <;> simp

theorem fieldsOf_inj {v w : Byte} : fieldsOf v = fieldsOf w ↔ v = w :=
  ⟨fun h => by rw [← append_fieldsOf v, ← append_fieldsOf w, h], congrArg fieldsOf⟩

theorem encode_of_fieldsOf {v : Byte} {i : Instr} (h : fieldsOf v = commandFields i) : encode i = v := by
  rw [← append_fieldsOf v, h]
  rfl

/-- The statement proved for each command on its own, for any command. -/
theorem roundTrip (i : Instr) : Laws.RoundTrip.Statement i := by
  cases i with
  | nop => exact Laws.RoundTrip.nop
  | setup v => exact Laws.RoundTrip.setup v
  | genDual => exact Laws.RoundTrip.genDual
  | genSingle => exact Laws.RoundTrip.genSingle

theorem fieldsOf_encode (i : Instr) : fieldsOf (encode i) = commandFields i :=
  have ⟨hfields, _, _⟩ := roundTrip i
  hfields

theorem commandFields_wellFormed (i : Instr) : (commandFields i).wellFormed = true :=
  have ⟨_, hwf, _⟩ := roundTrip i
  hwf

theorem decode_encode (i : Instr) : decode (encode i) = .command i :=
  have ⟨_, _, hdecode⟩ := roundTrip i
  hdecode

@[simp] theorem variantBit_variantOfBit (b : BitVec 1) : variantBit (variantOfBit b) = b := by
  rcases BitVec.eq_zero_or_eq_one b with rfl | rfl <;> rfl

/-- The fields of a byte that decodes to a command are that command's. -/
theorem fieldsOf_of_decode {v : Byte} {i : Instr} (h : decode v = .command i) : fieldsOf v = commandFields i := by
  unfold decode at h
  generalize fieldsOf v = f at h ⊢
  obtain ⟨rsv, bit, op⟩ := f
  dsimp only at h
  split_ifs at h with hrsv hsetup hbit hnop hdual hsingle <;> cases h
  case pos => simp_all [commandFields]
  all_goals
    have hlinear : bit = 0 := (BitVec.eq_zero_or_eq_one bit).resolve_right (by simpa using hbit)
    simp_all [commandFields]

theorem decode_eq_command_iff (v : Byte) (i : Instr) : decode v = .command i ↔ encode i = v :=
  ⟨fun h => encode_of_fieldsOf (fieldsOf_of_decode h), fun h => h ▸ decode_encode i⟩

theorem opDefined_cases {op : BitVec 4} (h : op.toNat ≤ 3) : op = 0 ∨ op = 1 ∨ op = 2 ∨ op = 3 := by
  bv_omega

/-- The well-formed fields are those of the commands (30_encoding.md R84). -/
theorem wellFormed_iff (f : CommandFields) : f.wellFormed = true ↔ ∃ i, f = commandFields i := by
  refine ⟨fun h => ?_, fun ⟨i, hi⟩ => hi ▸ commandFields_wellFormed i⟩
  obtain ⟨rsv, bit, op⟩ := f
  simp only [CommandFields.wellFormed, CommandFields.rsvClear, CommandFields.opDefined,
    CommandFields.variantOnlyOnSetup, Bool.and_eq_true, Bool.or_eq_true, beq_iff_eq, decide_eq_true_iff] at h
  obtain ⟨⟨rfl, hop⟩, hbit⟩ := h
  by_cases hsetup : op = 1
  · exact ⟨.setup (variantOfBit bit), by simp [commandFields, hsetup]⟩
  obtain rfl : bit = 0 := hbit.resolve_right hsetup
  rcases opDefined_cases hop with rfl | rfl | rfl | rfl
  · exact ⟨.nop, rfl⟩
  · exact absurd rfl hsetup
  · exact ⟨.genDual, rfl⟩
  · exact ⟨.genSingle, rfl⟩

theorem command?_eq_some_iff (d : Decoded) (i : Instr) : d.command? = some i ↔ d = .command i := by
  cases d <;> simp [Decoded.command?]

theorem isSome_command?_decode (v : Byte) : (decode v).command?.isSome = (fieldsOf v).wellFormed := by
  rw [Bool.eq_iff_iff, wellFormed_iff, Option.isSome_iff_exists]
  refine exists_congr fun i => ?_
  rw [command?_eq_some_iff, decode_eq_command_iff]
  exact ⟨fun h => h ▸ fieldsOf_encode i, encode_of_fieldsOf⟩

theorem decodeTableWord_encode (i : Instr) : decodeTableWord 8 (encode i).toNat = some i := by
  have hlt : (encode i).toNat % 2 ^ 8 = (encode i).toNat := Nat.mod_eq_of_lt (encode i).isLt
  rw [decodeTableWord, hlt, if_pos (encode i).isLt, BitVec.ofNat_toNat, BitVec.setWidth_eq, decode_encode]
  rfl

/-- The classes of ill-formed fields (30_encoding.md R85). -/
theorem not_wellFormed_iff (f : CommandFields) :
    f.wellFormed = false ↔
      f.rsv ≠ 0 ∨ (4 ≤ f.op.toNat ∧ f.rsv = 0) ∨ f = ⟨0, 1, 0⟩ ∨ f = ⟨0, 1, 2⟩ ∨ f = ⟨0, 1, 3⟩ := by
  obtain ⟨rsv, bit, op⟩ := f
  by_cases hrsv : rsv = 0
  case neg =>
    have hclear : CommandFields.rsvClear ⟨rsv, bit, op⟩ = false := beq_eq_false_iff_ne.mpr hrsv
    rw [CommandFields.wellFormed, hclear]
    exact ⟨fun _ => .inl hrsv, fun _ => rfl⟩
  by_cases hop : op.toNat ≤ 3
  case neg =>
    have hdefined : CommandFields.opDefined ⟨rsv, bit, op⟩ = false := decide_eq_false hop
    rw [CommandFields.wellFormed, hdefined, Bool.and_false]
    exact ⟨fun _ => .inr (.inl ⟨Nat.lt_of_not_le hop, hrsv⟩), fun _ => rfl⟩
  subst hrsv
  rcases opDefined_cases hop with rfl | rfl | rfl | rfl <;> rcases BitVec.eq_zero_or_eq_one bit with rfl | rfl <;>
    decide

/-- The illegal bytes, by class (30_encoding.md R85). -/
theorem illegal_iff (v : Byte) :
    (decode v).command? = none ↔
      (fieldsOf v).rsv ≠ 0 ∨ (4 ≤ (fieldsOf v).op.toNat ∧ (fieldsOf v).rsv = 0) ∨ v = 0x10 ∨ v = 0x12 ∨ v = 0x13 := by
  have h10 : v = 0x10 ↔ fieldsOf v = ⟨0, 1, 0⟩ := fieldsOf_inj.symm
  have h12 : v = 0x12 ↔ fieldsOf v = ⟨0, 1, 2⟩ := fieldsOf_inj.symm
  have h13 : v = 0x13 ↔ fieldsOf v = ⟨0, 1, 3⟩ := fieldsOf_inj.symm
  rw [h10, h12, h13, ← not_wellFormed_iff, ← isSome_command?_decode]
  cases (decode v).command? <;> simp

/-! ### Counting bytes by RSV (30_encoding.md R85) -/

/-- From 0x20 on the reserved bits are not clear. -/
theorem rsv_ne_zero {n : Nat} (hn : 32 ≤ n) (hlt : n < 256) : (fieldsOf (BitVec.ofNat 8 n)).rsv ≠ 0 := by
  intro h
  have hdiv : (fieldsOf (BitVec.ofNat 8 n)).rsv.toNat = 0 := congrArg BitVec.toNat h
  simp only [fieldsOf, BitVec.extractLsb'_toNat, BitVec.toNat_ofNat, Nat.shiftRight_eq_div_pow] at hdiv
  omega

theorem countP_bytes (p : Nat → Bool) :
    (List.range 256).countP p = (List.range 32).countP p + (List.range 224).countP fun k => p (32 + k) := by
  rw [show 256 = 32 + 224 from rfl, List.range_add, List.countP_append, List.countP_map]
  rfl

/-- A count in which every byte with reserved bits set is. -/
theorem countP_bytes_all {p : Nat → Bool} (hp : ∀ n, 32 ≤ n → n < 256 → p n = true) :
    (List.range 256).countP p = (List.range 32).countP p + 224 := by
  have hall : ∀ k ∈ List.range 224, p (32 + k) = true := fun k hk =>
    hp _ (Nat.le_add_right 32 k) (Nat.add_lt_add_left (List.mem_range.mp hk) 32)
  rw [countP_bytes, List.countP_eq_length.mpr hall, List.length_range]

/-- A count in which no byte with reserved bits set is. -/
theorem countP_bytes_none {p : Nat → Bool} (hp : ∀ n, 32 ≤ n → n < 256 → p n = false) :
    (List.range 256).countP p = (List.range 32).countP p := by
  have hnone : ∀ k ∈ List.range 224, ¬p (32 + k) = true := fun k hk =>
    Bool.eq_false_iff.mp (hp _ (Nat.le_add_right 32 k) (Nat.add_lt_add_left (List.mem_range.mp hk) 32))
  rw [countP_bytes, List.countP_eq_zero.mpr hnone, Nat.add_zero]

theorem count_rsv : ((List.range 256).countP fun n => (fieldsOf (BitVec.ofNat 8 n)).rsv != 0) = 224 := by
  rw [countP_bytes_all fun n hn hlt => bne_iff_ne.mpr (rsv_ne_zero hn hlt)]
  decide

theorem count_illegal : ((List.range 256).countP fun n => (decode (BitVec.ofNat 8 n)).command?.isNone) = 251 := by
  rw [countP_bytes_all fun n hn hlt => Option.isNone_iff_eq_none.mpr ((illegal_iff _).mpr (.inl (rsv_ne_zero hn hlt)))]
  decide

theorem count_reservedOp :
    ((List.range 256).countP fun n =>
      decide (4 ≤ (fieldsOf (BitVec.ofNat 8 n)).op.toNat) && (fieldsOf (BitVec.ofNat 8 n)).rsv == 0) = 24 := by
  rw [countP_bytes_none fun n hn hlt => by rw [beq_eq_false_iff_ne.mpr (rsv_ne_zero hn hlt), Bool.and_false]]
  decide

end Sys2Proof

namespace Sys2Proof.Machine

/-! ### The micro-steps a running command has left -/

/-- How many micro-steps a command runs from the first step of a phase on (10_state.md R38's table; 43_key_setup.md
R136; 44_keystream.md R153). -/
def timeFrom (v : Variant) : Phase → Nat
  | .idle => 0
  | .key => 64 + 22 + 100 + (variantBit v).toNat
  | .frame => 22 + 100 + (variantBit v).toNat
  | .mix => 100 + (variantBit v).toNat
  | .prime => 1
  | .genAB => 114 + 114
  | .genBA => 114
  | .genS => 114

/-- A phase takes its own steps, then those of the phase that follows it. -/
theorem timeFrom_eq (v : Variant) {p : Phase} (hp : p ≠ .idle) :
    timeFrom v p = phaseSteps p + timeFrom v (nextPhase v p) := by
  cases p with
  | idle => exact absurd rfl hp
  | mix => cases v <;> rfl
  | key | frame => simp [timeFrom, phaseSteps, nextPhase, keyBits, frameBits]; omega
  | prime | genAB | genBA | genS => rfl

/-- The sequencer is `n` micro-steps before the end of a command. -/
structure Countdown (n : Nat) (s : State) : Prop where
  busy_eq : s.busy = (s.phase != .idle)
  step_lt : s.stepNo.toNat < phaseSteps s.phase
  left_eq : n + s.stepNo.toNat = timeFrom s.variant s.phase

/-- The acceptance of a command sets its busy time (70_reset_and_hazards.md R223). -/
theorem countdown_of_exec {i : Instr} {s t : State} (hs : s.busy = false) (hst : exec i s = .next t)
    (ht : t.busy = true) : Countdown (busyTime i) t := by
  have hidle : ¬s.busy = true := Bool.eq_false_iff.mp hs
  rcases exec_idle_cases i s hs with ⟨_, h⟩ | ⟨v, rfl, _, h⟩ | ⟨_, _, _, h⟩ | ⟨rfl, _, h⟩ | ⟨rfl, _, _, h⟩ |
    ⟨_, _, _, h⟩ | ⟨_, _, h⟩
  all_goals cases h.symm.trans hst
  · exact absurd ht hidle
  · exact ⟨rfl, phaseSteps_pos .key, by cases v <;> rfl⟩
  · exact absurd ht hidle
  · exact ⟨rfl, phaseSteps_pos .genAB, rfl⟩
  · exact ⟨rfl, phaseSteps_pos .genS, rfl⟩
  · exact absurd ht hidle
  · exact absurd ht hidle

namespace Countdown

theorem phase_idle {s : State} (h : Countdown 0 s) : s.phase = .idle := by
  by_contra hp
  have hleft := h.left_eq
  rw [timeFrom_eq _ hp] at hleft
  have := h.step_lt
  omega

theorem busy_of_zero {s : State} (h : Countdown 0 s) : s.busy = false := by
  rw [h.busy_eq, h.phase_idle]
  rfl

theorem phase_ne_idle {n : Nat} {s : State} (h : Countdown (n + 1) s) : s.phase ≠ .idle := by
  intro hp
  have hleft := h.left_eq
  rw [hp, timeFrom] at hleft
  omega

theorem busy_of_succ {n : Nat} {s : State} (h : Countdown (n + 1) s) : s.busy = true := by
  rw [h.busy_eq]
  exact bne_iff_ne.mpr h.phase_ne_idle

theorem own {n : Nat} {s : State} (hs : Countdown n s) (h r d) : Countdown n (s.own h r d) :=
  ⟨hs.busy_eq, hs.step_lt, hs.left_eq⟩

theorem stepNo_succ {n : Nat} {s : State} (h : Countdown n s) : (s.stepNo + 1).toNat = s.stepNo.toNat + 1 := by
  have hlt := h.step_lt
  have hle := phaseSteps_le s.phase
  rw [BitVec.toNat_add]
  exact Nat.mod_eq_of_lt (show s.stepNo.toNat + 1 < 2 ^ 7 by omega)

/-- Each micro-step takes one off. -/
theorem microStep {n : Nat} {s : State} (h : Countdown (n + 1) s) : Countdown n s.microStep := by
  have hleft := h.left_eq
  have hlt := h.step_lt
  cases microStep_moves s h.phase_ne_idle with
  | counts hlast hphase hstep hbusy _ =>
    rw [not_or] at hlast
    refine ⟨by rw [hbusy, hphase, h.busy_eq], ?_, ?_⟩ <;> rw [hstep, h.stepNo_succ, hphase]
    · omega
    · rw [microStep_variant, ← hleft]
      omega
  | finishes hlast hphase hstep hbusy _ =>
    have hend : s.stepNo.toNat + 1 = phaseSteps s.phase := by
      rcases hlast with hprime | hend
      · rw [hprime, phaseSteps] at hlt ⊢
        omega
      · exact hend
    refine ⟨?_, ?_, ?_⟩
    · rw [hbusy, h.busy_of_succ, Bool.true_and, Bool.eq_iff_iff, decide_eq_true_iff, bne_iff_ne]
    · rw [hstep]
      exact phaseSteps_pos _
    · rw [timeFrom_eq _ h.phase_ne_idle] at hleft
      rw [hstep, hphase, microStep_variant]
      change n + 0 = _
      omega

end Countdown

/-! ### The step of a WAIT -/

theorem runSteps_succ_of_step {s t : State} (h : step s = .next t) (n : Nat) : runSteps (n + 1) s = runSteps n t := by
  rw [runSteps, h]

theorem runSteps_one_of_step {s t : State} (h : step s = .next t) : runSteps 1 s = .next t :=
  runSteps_succ_of_step h 0

theorem advanceHost_wait {s : State} {rest : List HostAction} (h : s.host = .wait :: rest) :
    s.advanceHost = { s with host := if s.rdata.getLsbD 0 then .wait :: rest else rest } := by
  rw [State.advanceHost, h]
  dsimp only
  split
  · rw [← h]
  · rfl

/-- Up to the edge of a WAIT: STATUS is read, and the host stays while BUSY = 1 (30_encoding.md R90). -/
theorem sampled_wait {s : State} {rest : List HostAction} (h : s.host = .wait :: rest) :
    s.sampled = s.own (if s.busy then .wait :: rest else rest) (statusByte s) s.draws := by
  have hread : s.portRead (readPins offsetStatus) = s.own (.wait :: rest) (statusByte s) s.draws := by
    rw [← h]
    rfl
  have hstatus : (s.own (.wait :: rest) (statusByte s) s.draws).rdata.getLsbD 0 = s.busy := (statusByte_fields s).1
  rw [State.sampled, pins_of_wait h, hread, advanceHost_wait rfl, hstatus]
  rfl

/-- A step of a WAIT: the sequencer's part of the edge, and the host's. -/
theorem step_wait {s : State} {rest : List HostAction} (h : s.host = .wait :: rest) :
    step s = .next (s.sequencerEdge.own (if s.busy then .wait :: rest else rest) (statusByte s) s.draws) := by
  have hpins := pins_of_wait h
  rw [step_no_command s (by rw [hpins]; rfl) (by rw [hpins]; decide), hpins, sampled_wait h, plainEdge_own]
  rfl

/-- A WAIT with `n` micro-steps to go reads BUSY = 1 in n cycles and then BUSY = 0. -/
theorem wait_of_countdown (n : Nat) {s : State} {rest : List HostAction} (hc : Countdown n s)
    (hhost : s.host = .wait :: rest) :
    (∀ k, k < n → ∃ u, runSteps (k + 1) s = .next u ∧ u.rdata.getLsbD 0 = true ∧ u.host = .wait :: rest) ∧
    ∃ u, runSteps (n + 1) s = .next u ∧ u.rdata.getLsbD 0 = false ∧ u.host = rest := by
  have hstep := step_wait hhost
  induction n generalizing s with
  | zero =>
    have hbusy := hc.busy_of_zero
    rw [hbusy] at hstep
    exact ⟨fun k hk => absurd hk (Nat.not_lt_zero k),
      _, runSteps_one_of_step hstep, (statusByte_fields s).1.trans hbusy, rfl⟩
  | succ n ih =>
    have hbusy := hc.busy_of_succ
    rw [hbusy, sequencerEdge_busy hbusy] at hstep
    obtain ⟨hwaits, hdone⟩ := ih (hc.microStep.own (.wait :: rest) (statusByte s) s.draws) rfl (step_wait rfl)
    refine ⟨fun k hk => ?_, by rw [runSteps_succ_of_step hstep]; exact hdone⟩
    cases k with
    | zero => exact ⟨_, runSteps_one_of_step hstep, (statusByte_fields s).1.trans hbusy, rfl⟩
    | succ k =>
      rw [runSteps_succ_of_step hstep]
      exact hwaits k (Nat.lt_of_succ_lt_succ hk)

/-! ### A run of stores -/

/-- The registers the host writes agree. -/
def SameOperands (s t : State) : Prop := s.keyReg = t.keyReg ∧ s.frameReg = t.frameReg

theorem sequencerEdge_sameOperands (s : State) : SameOperands s.sequencerEdge s := by
  cases hb : s.busy
  · rw [sequencerEdge_idle hb]
    exact ⟨rfl, rfl⟩
  · rw [sequencerEdge_busy hb]
    exact ⟨microStep_keyReg s, microStep_frameReg s⟩

/-- What a store makes of KEY_REG and FRAME_REG depends on nothing else. -/
theorem windowStore_sameOperands (a v : Byte) {s t : State} (h : SameOperands s t) :
    SameOperands (windowStore a v s) (windowStore a v t) := by
  obtain ⟨hkey, hframe⟩ := h
  rcases windowStore_cases a with ⟨j, _, _, hstore⟩ | ⟨i, _, _, hstore⟩ | hstore
  · rw [hstore, hstore]
    exact ⟨hkey, by rw [State.storeFrame_frameReg, State.storeFrame_frameReg, hframe]⟩
  · rw [hstore, hstore]
    exact ⟨by rw [State.storeKey_keyReg, State.storeKey_keyReg, hkey], hframe⟩
  · rw [hstore, hstore]
    exact ⟨hkey, hframe⟩

/-- The stores of a list of offsets and bytes, the first one first. -/
def storeAll : List (Byte × Byte) → State → State
  | [], s => s
  | w :: ws, s => storeAll ws (windowStore w.1 w.2 s)

/-- The host's actions for these stores. -/
def storeActions (ws : List (Byte × Byte)) : List HostAction := ws.map fun w => .cycle (writePins w.1 w.2)

theorem storeAll_sameOperands (ws : List (Byte × Byte)) {s t : State} (h : SameOperands s t) :
    SameOperands (storeAll ws s) (storeAll ws t) := by
  induction ws generalizing s t with
  | nil => exact h
  | cons w ws ih => exact ih (windowStore_sameOperands w.1 w.2 h)

/-- A step that stores, while a command runs or not. -/
theorem step_store {s : State} {a v : Byte} {rest : List HostAction} (ha : a ≠ 0x00)
    (h : s.host = .cycle (writePins a v) :: rest) :
    ∃ t, step s = .next t ∧ SameOperands t (windowStore a v s) ∧ t.host = rest := by
  have hpins := pins_of_cycle s (writePins a v) rest h
  have hsampled : s.sampled = s.own rest (Config.idleRdata s.draws) (s.draws + 1) :=
    sampled_of_cycle s (writePins a v) rest h
  refine ⟨_, step_no_command s (by rw [hpins]; rfl) (by rw [hpins]; exact fun hc => ha hc.2), ?_⟩
  rw [hpins, hsampled, plainEdge_own]
  exact ⟨windowStore_sameOperands a v (sequencerEdge_sameOperands s), rfl⟩

/-- A run of stores leaves the operands as the stores alone do. -/
theorem runSteps_stores (ws : List (Byte × Byte)) (hws : ∀ w ∈ ws, w.1 ≠ 0x00) {s : State} {rest : List HostAction}
    (h : s.host = storeActions ws ++ rest) :
    ∃ t, runSteps ws.length s = .next t ∧ SameOperands t (storeAll ws s) ∧ t.host = rest := by
  induction ws generalizing s with
  | nil => exact ⟨s, rfl, ⟨rfl, rfl⟩, h⟩
  | cons w ws ih =>
    obtain ⟨hw, hws⟩ := List.forall_mem_cons.mp hws
    obtain ⟨t, hst, hsame, hhost⟩ := step_store hw h
    obtain ⟨u, hrun, hops, hrest⟩ := ih hws hhost
    obtain ⟨hkey, hframe⟩ := storeAll_sameOperands ws hsame
    exact ⟨u, (runSteps_succ_of_step hst _).trans hrun, ⟨hops.1.trans hkey, hops.2.trans hframe⟩, hrest⟩

/-- The store of byte `i` of a key (30_encoding.md R90). -/
def keyStore (b : Vector Byte 8) (i : Fin 8) : Byte × Byte := (BitVec.ofNat 8 (8 + i), b[i])

/-- The store of byte `j` of a frame (30_encoding.md R90). -/
def frameStore (f : BitVec 24) (j : Fin 3) : Byte × Byte := (BitVec.ofNat 8 (4 + j), frameByte f j)

theorem expandLine_ldKey (b : Vector Byte 8) :
    expandLine (.ldKey b) = storeActions ((List.finRange 8).map (keyStore b)) := rfl

theorem expandLine_ldFrame (f : BitVec 24) :
    expandLine (.ldFrame f) = storeActions ((List.finRange 3).map (frameStore f)) := rfl

theorem keyStore_offset_ne_zero (b : Vector Byte 8) (i : Fin 8) : (keyStore b i).1 ≠ 0x00 := by
  have hoffset : ∀ i : Fin 8, BitVec.ofNat 8 (8 + i) ≠ 0x00 := by decide
  exact hoffset i

theorem frameStore_offset_ne_zero (f : BitVec 24) (j : Fin 3) : (frameStore f j).1 ≠ 0x00 := by
  have hoffset : ∀ j : Fin 3, BitVec.ofNat 8 (4 + j) ≠ 0x00 := by decide
  exact hoffset j

/-- Stores of bytes of a key leave exactly these bytes of KEY_REG. -/
theorem storeAll_keyStores (b : Vector Byte 8) (is : List (Fin 8)) (s : State) :
    (storeAll (is.map (keyStore b)) s).frameReg = s.frameReg ∧
      ∀ k : Fin 8, (storeAll (is.map (keyStore b)) s).keyReg[k] = if k ∈ is then b[k] else s.keyReg[k] := by
  induction is generalizing s with
  | nil => exact ⟨rfl, fun _ => rfl⟩
  | cons i is ih =>
    obtain ⟨hframe, hkey⟩ := ih (s.storeKey i b[i])
    rw [List.map_cons, storeAll, keyStore, windowStore_key _ _ i.isLt]
    refine ⟨hframe, fun k => (hkey k).trans ?_⟩
    have hget : (s.storeKey i b[i]).keyReg[k] = if (i : Nat) = k then b[i] else s.keyReg[k] :=
      Vector.getElem_setIfInBounds k.isLt
    rw [hget]
    by_cases hik : i = k
    · subst hik
      rw [if_pos rfl, ite_self, if_pos List.mem_cons_self]
    · rw [if_neg (Fin.val_ne_of_ne hik)]
      simp [Ne.symm hik]

/-- Stores of bytes of a frame leave exactly these bytes of FRAME_REG. -/
theorem storeAll_frameStores (f : BitVec 24) (js : List (Fin 3)) (s : State) :
    (storeAll (js.map (frameStore f)) s).keyReg = s.keyReg ∧
      ∀ k : Fin 3, frameByte (storeAll (js.map (frameStore f)) s).frameReg k =
        if k ∈ js then frameByte f k else frameByte s.frameReg k := by
  induction js generalizing s with
  | nil => exact ⟨rfl, fun _ => rfl⟩
  | cons j js ih =>
    obtain ⟨hkey, hframe⟩ := ih (s.storeFrame j (frameByte f j))
    rw [List.map_cons, storeAll, frameStore, windowStore_frame _ _ j.isLt]
    refine ⟨hkey, fun k => (hframe k).trans ?_⟩
    rw [State.storeFrame_frameReg]
    by_cases hjk : k = j
    · subst hjk
      rw [frameByte_setFrameByte _ _ k.isLt, ite_self, if_pos List.mem_cons_self]
    · rw [frameByte_setFrameByte_of_ne _ _ j.isLt k.isLt (Fin.val_ne_of_ne hjk)]
      simp [hjk]

theorem eq_of_frameByte_eq {f g : BitVec 24} (h : ∀ k : Fin 3, frameByte f k = frameByte g k) : f = g := by
  apply BitVec.eq_of_getLsbD_eq
  intro i hi
  have hbit := congrArg (BitVec.getLsbD · (i % 8)) (h ⟨i / 8, by omega⟩)
  simpa [frameByte, Nat.mod_lt, Nat.div_add_mod] using hbit

/-! ### A CMD write of a byte that is no command, or while a command runs -/

theorem commandWrite_illegal {v : Byte} (hv : (decode v).command? = none) (s : State) :
    commandWrite v s = illegalWrite s := by
  rcases commandWrite_cases v s with ⟨i, hd, _⟩ | ⟨_, _, h⟩
  · rw [hd] at hv
    cases hv
  · exact h

theorem commandWrite_busy (v : Byte) {s : State} (hb : s.busy = true) :
    commandWrite v s = .next { s.microStep with err := 5 } := by
  rcases commandWrite_cases v s with ⟨i, _, h⟩ | ⟨_, _, h⟩
  · rw [h, exec_busy i s hb]
  · rw [h]
    exact onCommand_busy _ s hb

/-! ### The statements -/

/-- Settles O31: the acceptance sets the countdown to the busy time, and the WAIT reads it down. -/
theorem waitReadsBusyTimePlusOne : Obligations.WaitReadsBusyTimePlusOne :=
  fun i _ _ _ hs hst ht hhost => wait_of_countdown (busyTime i) (countdown_of_exec hs hst ht) hhost

/-- Settles O1: decoding and encoding go through the same fields. -/
theorem decodeEncodeAgree : Obligations.DecodeEncodeAgree := ⟨decode_eq_command_iff, isSome_command?_decode⟩

/-- Settles O48: each line is a run of stores, which together set every byte of their register. -/
theorem loadLinesLoadOperands : Obligations.LoadLinesLoadOperands := by
  refine ⟨fun s b rest hhost => ?_, fun s f rest hhost => ?_⟩
  · obtain ⟨t, hrun, ⟨hkey, hframe⟩, hrest⟩ :=
      runSteps_stores _ (List.forall_mem_map.mpr fun i _ => keyStore_offset_ne_zero b i)
        (hhost.trans (congrArg (· ++ rest) (expandLine_ldKey b)))
    obtain ⟨hframe', hkey'⟩ := storeAll_keyStores b (List.finRange 8) s
    refine ⟨t, hrun, ?_, hframe.trans hframe', hrest⟩
    rw [hkey]
    exact Vector.ext fun k hk => (hkey' ⟨k, hk⟩).trans (if_pos (List.mem_finRange _))
  · obtain ⟨t, hrun, ⟨hkey, hframe⟩, hrest⟩ :=
      runSteps_stores _ (List.forall_mem_map.mpr fun j _ => frameStore_offset_ne_zero f j)
        (hhost.trans (congrArg (· ++ rest) (expandLine_ldFrame f)))
    obtain ⟨hkey', hframe'⟩ := storeAll_frameStores f (List.finRange 3) s
    refine ⟨t, hrun, ?_, hkey.trans hkey', hrest⟩
    rw [hframe]
    exact eq_of_frameByte_eq fun k => (hframe' k).trans (if_pos (List.mem_finRange k))

/-- Settles O2: the five legal bytes are the encodings of the commands. -/
theorem commandBytesDecode : Obligations.CommandBytesDecode :=
  ⟨decodeTableWord_encode .nop, decodeTableWord_encode (.setup .linear), decodeTableWord_encode (.setup .nonLinear),
    decodeTableWord_encode .genDual, decodeTableWord_encode .genSingle, rfl⟩

/-- Settles O3: a byte is illegal when its fields are not well formed, and its CMD write is the illegal command's. -/
theorem illegalBytesRejected : Obligations.IllegalBytesRejected := by
  refine ⟨illegal_iff, count_illegal, count_rsv, count_reservedOp, fun v s hv hb => ?_,
    fun v s hb => commandWrite_busy v hb⟩
  rw [commandWrite_illegal hv]
  exact onCommand_idle _ s hb

end Sys2Proof.Machine
end

section
/-! PROOFS. Parity and majority as functions of the bits: what the XOR of the low bits counts, how it meets XOR, and
the truth table of the majority (40_bitops.md). -/

namespace Sys2Proof.Machine

/-! ### Parity -/

theorem parityBelow_eq_countP {n : Nat} (w : BitVec n) (k : Nat) :
    parityBelow w k = decide ((List.range k).countP (fun i => w.getLsbD i) % 2 = 1) := by
  induction k with
  | zero => rfl
  | succ k ih =>
    rw [parityBelow, ih, List.range_succ, List.countP_append, List.countP_singleton]
    cases w.getLsbD k
    · simp
    · have one_more_flips (c : Nat) : (c + 1) % 2 = 1 ↔ ¬c % 2 = 1 := by omega
      simp [one_more_flips, -Nat.mod_two_not_eq_one]

theorem parity_setWidth_add {n : Nat} (w : BitVec n) (m : Nat) : parity (w.setWidth (n + m)) = parity w :=
  calc parityBelow (w.setWidth (n + m)) (n + m)
    _ = parityBelow w (n + m) := parityBelow_of_agree _ _ _ fun i hi => by simp [hi]
    _ = parityBelow w n := parityBelow_above_width w m

theorem parityBelow_zero (n k : Nat) : parityBelow (0 : BitVec n) k = false := by
  induction k with
  | zero => rfl
  | succ k ih => rw [parityBelow, ih, Bool.false_xor]; exact BitVec.getLsbD_zero

theorem parityBelow_xor {n : Nat} (a b : BitVec n) (k : Nat) :
    parityBelow (a ^^^ b) k = (parityBelow a k ^^ parityBelow b k) := by
  induction k with
  | zero => rfl
  | succ k ih =>
    simp only [parityBelow]
    rw [ih, BitVec.getLsbD_xor, Bool.xor_assoc, Bool.xor_assoc, Bool.xor_left_comm (parityBelow b k)]

/-! ### Majority -/

/-- The eight rows of 40_bitops.md R101's truth table. -/
theorem two_le_agreeing_with_majority (x y z : Bool) :
    2 ≤ (x == (x && y || x && z || y && z)).toNat + (y == (x && y || x && z || y && z)).toNat +
      (z == (x && y || x && z || y && z)).toNat := by
  revert x y z
  decide

/-! ### The statements -/

/-- Settles O17: the XOR of the low k bits is the parity of their count, and no bit above the width is set. -/
theorem parityCountsOnes : Obligations.ParityCountsOnes :=
  ⟨fun n w => parityBelow_eq_countP w n, fun _ m w => parity_setWidth_add w m, fun n => parityBelow_zero n n, rfl, rfl⟩

/-- Settles O18, bit by bit: XOR is associative and commutative. -/
theorem parityLinear : Obligations.ParityLinear := fun n a b => parityBelow_xor a b n

/-- Settles O19: which words count as set is all that majority reads. -/
theorem majorityAgreesWithTwo : Obligations.MajorityAgreesWithTwo := by
  intro l m n a b c
  rw [← isSet_eq_decide, ← isSet_eq_decide, ← isSet_eq_decide, majority_eq]
  exact two_le_agreeing_with_majority _ _ _

end Sys2Proof.Machine
end

section
/-! PROOFS. The clock primitive at every width and for every mask: it stays inside a mask that holds bit 0, and on a
wider word it computes the same; then the statements of 41_register_clock.md. -/

namespace Sys2Proof.Machine

/-! ### The clock inside its mask -/

/-- The feedback bit alone is inside every mask that holds bit 0. -/
theorem feedback_and_mask {w : Nat} (feedback : Bool) {mask : BitVec w} (h0 : mask.getLsbD 0 = true) :
    (BitVec.ofBool feedback).setWidth w &&& mask = (BitVec.ofBool feedback).setWidth w := by
  ext i hi
  cases i with
  | zero => simp [← BitVec.getLsbD_eq_getElem, h0]
  | succ i => simp

/-- 41_register_clock.md R112: the shifted word is masked, and the feedback and the forced value are inside the mask. -/
theorem clockOne_and_mask {w : Nat} (reg taps : BitVec w) {mask forced : BitVec w} (h0 : mask.getLsbD 0 = true)
    (hf : forced &&& mask = forced) : clockOne reg mask taps forced &&& mask = clockOne reg mask taps forced := by
  unfold clockOne
  dsimp only
  rw [BitVec.and_or_distrib_right, BitVec.and_or_distrib_right, feedback_and_mask _ h0, hf, BitVec.and_assoc,
    BitVec.and_self]

theorem clockOne_toNat_le_mask {w : Nat} (reg taps : BitVec w) {mask forced : BitVec w} (h0 : mask.getLsbD 0 = true)
    (hf : forced &&& mask = forced) : (clockOne reg mask taps forced).toNat ≤ mask.toNat := by
  rw [← clockOne_and_mask reg taps h0 hf, BitVec.toNat_and]
  exact Nat.and_le_right

/-! ### The clock on a wider word -/

/-- The mask drops the bit that a wider word keeps of the shift. -/
theorem setWidth_shiftLeft_and {w : Nat} (reg mask : BitVec w) (m : Nat) :
    ((reg <<< 1) &&& mask).setWidth (w + m) = (reg.setWidth (w + m) <<< 1) &&& mask.setWidth (w + m) := by
  ext i hi
  by_cases hiw : i < w
  · cases i with
    | zero => simp
    | succ i => simp [hiw, show i < w + m by omega, ← BitVec.getLsbD_eq_getElem]
  · simp [BitVec.getLsbD_of_ge mask i (by omega)]

/-- A wider word is clocked like the register: its parity sees no new bit, and its shift is masked. -/
theorem setWidth_clockOne {w : Nat} (reg mask taps forced : BitVec w) (m : Nat) (hw : 0 < w) :
    (clockOne reg mask taps forced).setWidth (w + m) =
      clockOne (reg.setWidth (w + m)) (mask.setWidth (w + m)) (taps.setWidth (w + m)) (forced.setWidth (w + m)) := by
  have same_feedback : parity (reg.setWidth (w + m) &&& taps.setWidth (w + m)) = parity (reg &&& taps) := by
    rw [← BitVec.setWidth_and, parity_setWidth_add]
  have same_bit (c : Bool) : ((BitVec.ofBool c).setWidth w).setWidth (w + m) = (BitVec.ofBool c).setWidth (w + m) :=
    BitVec.setWidth_setWidth (by omega)
  unfold clockOne
  dsimp only
  rw [BitVec.setWidth_or, BitVec.setWidth_or, setWidth_shiftLeft_and, same_feedback, same_bit]

/-! ### The statements -/

/-- Settles O20: the four masks are full, so the rules of `clockOne`, bit by bit, hold of each register. -/
theorem clockOneShiftsInFeedback : Obligations.ClockOneShiftsInFeedback :=
  ⟨fun _ _ => clockOne_bit_zero _ _ _ _ (by decide),
    fun _ _ => clockOne_bit_zero _ _ _ _ (by decide),
    fun _ _ => clockOne_bit_zero _ _ _ _ (by decide),
    fun _ _ => clockOne_bit_zero _ _ _ _ (by decide),
    fun _ _ _ hk => clockOne_bit_succ _ _ _ _ rfl _ (Nat.succ_lt_succ hk),
    fun _ _ _ hk => clockOne_bit_succ _ _ _ _ rfl _ (Nat.succ_lt_succ hk),
    fun _ _ _ hk => clockOne_bit_succ _ _ _ _ rfl _ (Nat.succ_lt_succ hk),
    fun _ _ _ hk => clockOne_bit_succ _ _ _ _ rfl _ (Nat.succ_lt_succ hk), rfl, rfl, rfl, rfl⟩

/-- Settles O21: each mask holds bit 0, and 24 bits are a wider word for each register. -/
theorem clockKeepsMask : Obligations.ClockKeepsMask :=
  ⟨fun taps r _ => ⟨clockOne_toNat_le_mask r taps rfl, clockOne_toNat_le_mask r taps rfl,
      clockOne_toNat_le_mask r taps rfl, clockOne_toNat_le_mask r taps rfl⟩,
    fun r f => setWidth_clockOne r mask1 taps1 f 5 (by decide),
    fun r f => setWidth_clockOne r mask2 taps2 f 2 (by decide),
    fun r f => setWidth_clockOne r mask3 taps3 f 1 (by decide),
    fun r f => setWidth_clockOne r mask4 taps4 f 7 (by decide)⟩

end Sys2Proof.Machine
end

section
/-! PROOFS. CLOCK through its enables: which bits vote, when a register agrees with the vote, and what the bank holds
once the enables are known; then the statements of 42_clock_control.md. -/

namespace Sys2Proof.Machine

/-! ### The control bits -/

/-- 10_state.md R29: the middle bits. -/
theorem controlBits_linear (b : Bank) :
    controlBits .linear b = (b.r1.getLsbD 8, b.r2.getLsbD 10, b.r3.getLsbD 10) := by
  have mid1_bit : isSet (b.r1 &&& mid1) = b.r1.getLsbD 8 := isSet_and_bit b.r1 8 (by decide)
  have mid2_bit : isSet (b.r2 &&& mid2) = b.r2.getLsbD 10 := isSet_and_bit b.r2 10 (by decide)
  have mid3_bit : isSet (b.r3 &&& mid3) = b.r3.getLsbD 10 := isSet_and_bit b.r3 10 (by decide)
  rw [controlBits, mid1_bit, mid2_bit, mid3_bit]

/-- 10_state.md R30: the taps of r4. -/
theorem controlBits_nonLinear (b : Bank) :
    controlBits .nonLinear b = (b.r4.getLsbD 10, b.r4.getLsbD 3, b.r4.getLsbD 7) := by
  have tap1_bit : isSet (b.r4 &&& tap1) = b.r4.getLsbD 10 := isSet_and_bit b.r4 10 (by decide)
  have tap2_bit : isSet (b.r4 &&& tap2) = b.r4.getLsbD 3 := isSet_and_bit b.r4 3 (by decide)
  have tap3_bit : isSet (b.r4 &&& tap3) = b.r4.getLsbD 7 := isSet_and_bit b.r4 7 (by decide)
  rw [controlBits, tap1_bit, tap2_bit, tap3_bit]

/-! ### The enables -/

theorem isSet_ofBool (c : Bool) : isSet (BitVec.ofBool c) = c := by
  cases c <;> rfl

/-- A control bit is in the majority when one of the other two is equal to it. -/
theorem agrees_with_majority_iff (c1 c2 c3 : Bool) :
    let maj := majority (BitVec.ofBool c1) (BitVec.ofBool c2) (BitVec.ofBool c3)
    (c1 == maj) = (c1 == c2 || c1 == c3) ∧ (c2 == maj) = (c2 == c1 || c2 == c3) ∧
      (c3 == maj) = (c3 == c1 || c3 == c2) := by
  simp only [majority_eq, isSet_ofBool]
  revert c1 c2 c3
  decide

theorem enables_of_controlBits {v : Variant} {b : Bank} {c1 c2 c3 : Bool} (hc : controlBits v b = (c1, c2, c3)) :
    enables v false b = (c1 == c2 || c1 == c3, c2 == c1 || c2 == c3, c3 == c1 || c3 == c2) := by
  obtain ⟨agrees1, agrees2, agrees3⟩ := agrees_with_majority_iff c1 c2 c3
  simp only [enables, controlMajority, hc, Bool.false_or, agrees1, agrees2, agrees3]

/-- 42_clock_control.md R123. -/
theorem enables_forceAll (v : Variant) (b : Bank) : enables v true b = (true, true, true) := rfl

/-- Of three bits, two or three are equal to another one of them: by the eight rows. -/
theorem two_or_three_agree (c1 c2 c3 : Bool) :
    let agreeing := (c1 == c2 || c1 == c3).toNat + (c2 == c1 || c2 == c3).toNat + (c3 == c1 || c3 == c2).toNat
    (agreeing = 2 ∨ agreeing = 3) ∧ (agreeing = 3 ↔ c1 = c2 ∧ c2 = c3) := by
  revert c1 c2 c3
  decide

theorem ne_both_of_held {c d e : Bool} (held : (c == d || c == e) = false) : c ≠ d ∧ c ≠ e := by
  simpa using held

/-! ### The bank after CLOCK, from the enables -/

theorem clock_linear_of_enables {forceAll e1 e2 e3 : Bool} {b : Bank} (he : enables .linear forceAll b = (e1, e2, e3))
    (loaded : Bool) :
    clock .linear forceAll loaded b =
      { b with
        r1 := if e1 then clk1 b.r1 0 else b.r1
        r2 := if e2 then clk2 b.r2 0 else b.r2
        r3 := if e3 then clk3 b.r3 0 else b.r3 } := by
  simp only [clock, clockLinear, he]

theorem clock_nonLinear_of_enables {forceAll e1 e2 e3 : Bool} {b : Bank}
    (he : enables .nonLinear forceAll b = (e1, e2, e3)) (loaded : Bool) :
    clock .nonLinear forceAll loaded b =
      { b with
        r1 := if e1 then clk1 b.r1 (if loaded then forced1 else 0) else b.r1
        r2 := if e2 then clk2 b.r2 (if loaded then forced2 else 0) else b.r2
        r3 := if e3 then clk3 b.r3 (if loaded then forced3 else 0) else b.r3
        r4 := clk4 b.r4 (if loaded then forced4 else 0) } := by
  simp only [clock, clockNonLinear, he]

/-- Where `loaded` is 0 the two variants clock r1, r2 and r3 alike. -/
theorem clock_unloaded_of_enables {v : Variant} {forceAll e1 e2 e3 : Bool} {b : Bank}
    (he : enables v forceAll b = (e1, e2, e3)) :
    (clock v forceAll false b).r1 = (if e1 then clk1 b.r1 0 else b.r1) ∧
      (clock v forceAll false b).r2 = (if e2 then clk2 b.r2 0 else b.r2) ∧
      (clock v forceAll false b).r3 = (if e3 then clk3 b.r3 0 else b.r3) := by
  cases v with
  | linear => rw [clock_linear_of_enables he]; exact ⟨rfl, rfl, rfl⟩
  | nonLinear => rw [clock_nonLinear_of_enables he]; exact ⟨rfl, rfl, rfl⟩

theorem clock_nonLinear_r4 (forceAll loaded : Bool) (b : Bank) :
    (clock .nonLinear forceAll loaded b).r4 = clk4 b.r4 (if loaded then forced4 else 0) := rfl

/-! ### The statements -/

/-- Settles O22: a register advances exactly when its control bit is equal to one of the other two. -/
theorem twoOrThreeAdvance : Obligations.TwoOrThreeAdvance := by
  refine ⟨controlBits_linear, controlBits_nonLinear, fun v b c1 c2 c3 e1 e2 e3 hc he => ?_⟩
  obtain ⟨clocked1, clocked2, clocked3⟩ := clock_unloaded_of_enables he
  have r4_clocked : v = .nonLinear → (clock v false false b).r4 = clk4 b.r4 0 := by
    rintro rfl
    exact clock_nonLinear_r4 false false b
  rw [enables_of_controlBits hc] at he
  cases he
  obtain ⟨two_or_three, three_iff⟩ := two_or_three_agree c1 c2 c3
  exact ⟨two_or_three, three_iff, ne_both_of_held, ne_both_of_held, ne_both_of_held, clocked1, clocked2, clocked3,
    r4_clocked⟩

/-- Settles O23: force_all sets every enable, and the forced bits are R31's. -/
theorem forceAllClocksEveryRegister : Obligations.ForceAllClocksEveryRegister :=
  ⟨fun loaded b => clock_linear_of_enables (enables_forceAll .linear b) loaded,
    fun b => clock_nonLinear_of_enables (enables_forceAll .nonLinear b) false,
    fun b => clock_nonLinear_of_enables (enables_forceAll .nonLinear b) true⟩

end Sys2Proof.Machine
end

section
/-! PROOFS. The setup: what one micro-step of each phase does to the bank, the phases of a SETUP as runs of micro-steps,
and the run of an accepted SETUP through the port; then the statements of 43_key_setup.md. -/

namespace Sys2Proof.Machine

/-! ### The operand bits, in order -/

theorem getLsbD_append_lowest_byte {n r : Nat} (x : BitVec n) (b : Byte) (hr : r < 8) :
    (x ++ b).getLsbD r = b.getLsbD r := by
  rw [BitVec.getLsbD_append, if_pos hr]

theorem getLsbD_append_byte_above {n : Nat} (x : BitVec n) (b : Byte) (m r : Nat) :
    (x ++ b).getLsbD (8 * (m + 1) + r) = x.getLsbD (8 * m + r) := by
  rw [BitVec.getLsbD_append, if_neg (by omega), show 8 * (m + 1) + r - 8 = 8 * m + r by omega]

/-- 43_key_setup.md R132: byte 0 is the lowest, and each further byte stands above it. -/
theorem keyOperand_bit (k : Vector Byte 8) {j r : Nat} (hj : j < 8) (hr : r < 8) :
    (keyOperand k).getLsbD (8 * j + r) = k[j].getLsbD r := by
  unfold keyOperand
  interval_cases j <;>
    simp only [getLsbD_append_byte_above, getLsbD_append_lowest_byte _ _ hr, Nat.mul_zero, Nat.zero_add]

theorem frameOperand_bit (f : BitVec 24) {i : Nat} (hi : i < 22) : (frameOperand f).getLsbD i = f.getLsbD i := by
  rw [frameOperand, BitVec.getLsbD_extractLsb', Nat.zero_add, decide_eq_true hi, Bool.true_and]

/-! ### The bank after one micro-step of a phase -/

theorem microStep_bank_key {s : State} (h : s.phase = .key) :
    s.microStep.bank = keyStepBank s.variant s.klatch s.stepNo.toNat s.bank := by
  rw [microStep_bank, h]

theorem microStep_bank_frame {s : State} (h : s.phase = .frame) :
    s.microStep.bank = frameStepBank s.variant s.flatch s.stepNo.toNat s.bank := by
  rw [microStep_bank, h]

/-- A CLOCK, then the XOR of one bit, register by register. -/
theorem xorBit_clock (v : Variant) (loaded bit : Bool) (b : Bank) :
    let c := clock v true loaded b
    let k := BitVec.ofBool bit
    (xorBit v bit c).r1 = c.r1 ^^^ k.setWidth 19 ∧ (xorBit v bit c).r2 = c.r2 ^^^ k.setWidth 22 ∧
    (xorBit v bit c).r3 = c.r3 ^^^ k.setWidth 23 ∧
    (xorBit v bit c).r4 = (if v = .nonLinear then c.r4 ^^^ k.setWidth 17 else b.r4) ∧
    (xorBit v bit c).delay = b.delay := by
  cases v <;> exact ⟨rfl, rfl, rfl, rfl, rfl⟩

/-- A bit that the clock forces is 1 after it, and the XOR of a key or frame bit reaches bit 0 only. -/
theorem forced_bit_after_xor {w : Nat} (reg taps forced : BitVec w) (bit : Bool) {k : Nat} (hk : k + 1 < w)
    (hforced : forced.getLsbD (k + 1) = true) :
    (clockOne reg (BitVec.allOnes w) taps forced ^^^ (BitVec.ofBool bit).setWidth w).getLsbD (k + 1) = true := by
  rw [BitVec.getLsbD_xor, clockOne_bit_succ _ _ _ _ rfl k hk, hforced]
  simp

/-- 43_key_setup.md R135: the loaded cycle of the NonLinear variant. -/
theorem frameStepBank_forced (f : FrameWord) (b : Bank) :
    (frameStepBank .nonLinear f 21 b).r1.getLsbD 15 = true ∧ (frameStepBank .nonLinear f 21 b).r2.getLsbD 16 = true ∧
    (frameStepBank .nonLinear f 21 b).r3.getLsbD 18 = true ∧ (frameStepBank .nonLinear f 21 b).r4.getLsbD 10 = true :=
  ⟨forced_bit_after_xor b.r1 taps1 forced1 (frameBit f 21) (by decide) rfl,
    forced_bit_after_xor b.r2 taps2 forced2 (frameBit f 21) (by decide) rfl,
    forced_bit_after_xor b.r3 taps3 forced3 (frameBit f 21) (by decide) rfl,
    forced_bit_after_xor b.r4 taps4 forced4 (frameBit f 21) (by decide) rfl⟩

/-! ### The phases of a SETUP as runs of micro-steps -/

/-- The state with the sequencer at step `i` of phase `p`, and the bank `b`. -/
def State.stage (p : Phase) (i : Nat) (b : Bank) (s : State) : State :=
  { s with phase := p, stepNo := BitVec.ofNat 7 i, bank := b }

theorem State.stage_stepNo_toNat (p : Phase) {i : Nat} (hi : i < 128) (b : Bank) (s : State) :
    (s.stage p i b).stepNo.toNat = i := Nat.mod_eq_of_lt hi

theorem State.stage_nextStep (p : Phase) (i : Nat) (b : Bank) (s : State) :
    (s.stage p i b).nextStep = s.stage p (i + 1) b := by
  unfold State.stage State.nextStep
  rw [BitVec.ofNat_add]
  rfl

theorem microRun_succ (n : Nat) (s : State) : microRun (n + 1) s = (microRun n s).microStep := microRun_add n 1 s

section
variable {s : State} {p : Phase} {last : Nat} {done : State → State} {bankAt : Nat → Bank}

/-- Within a phase STEP counts the micro-steps and the bank goes through `bankAt`. -/
theorem microRun_within_phase (hlast : last < 128)
    (hstep : ∀ i, i ≤ last → (s.stage p i (bankAt i)).microStep = (s.stage p i (bankAt (i + 1))).countTo last done)
    {n : Nat} (hn : n ≤ last) : microRun n (s.stage p 0 (bankAt 0)) = s.stage p n (bankAt n) := by
  induction n with
  | zero => rfl
  | succ n ih =>
    rw [microRun_succ, ih (by omega), hstep n (by omega), State.countTo, s.stage_stepNo_toNat p (by omega),
      if_neg (by omega), State.stage_nextStep]

/-- A whole phase: its last micro-step leads to `done`. -/
theorem microRun_phase (hlast : last < 128)
    (hstep : ∀ i, i ≤ last → (s.stage p i (bankAt i)).microStep = (s.stage p i (bankAt (i + 1))).countTo last done) :
    microRun (last + 1) (s.stage p 0 (bankAt 0)) = done (s.stage p last (bankAt (last + 1))) := by
  rw [microRun_succ, microRun_within_phase hlast hstep le_rfl, hstep last le_rfl, State.countTo,
    s.stage_stepNo_toNat p hlast, if_pos rfl]

end

theorem microStep_stage_key (s : State) {i : Nat} (hi : i < 128) (b : Bank) :
    (s.stage .key i b).microStep =
      (s.stage .key i (keyStepBank s.variant s.klatch i b)).countTo 63 (State.enterPhase .frame) :=
  congrArg (fun m => (s.stage .key i (keyStepBank s.variant s.klatch m b)).countTo 63 (State.enterPhase .frame))
    (s.stage_stepNo_toNat .key hi b)

theorem microStep_stage_frame (s : State) {i : Nat} (hi : i < 128) (b : Bank) :
    (s.stage .frame i b).microStep =
      (s.stage .frame i (frameStepBank s.variant s.flatch i b)).countTo 21 (State.enterPhase .mix) :=
  congrArg (fun m => (s.stage .frame i (frameStepBank s.variant s.flatch m b)).countTo 21 (State.enterPhase .mix))
    (s.stage_stepNo_toNat .frame hi b)

theorem microStep_stage_mix (s : State) (i : Nat) (b : Bank) :
    (s.stage .mix i b).microStep = (s.stage .mix i (clock s.variant false false b)).countTo 99 State.mixDone := rfl

theorem microRun_key (s : State) (b : Bank) :
    microRun 64 (s.stage .key 0 b) = s.stage .frame 0 (loadKeyBits s.variant s.klatch 64 b) :=
  microRun_phase (last := 63) (bankAt := fun i => loadKeyBits s.variant s.klatch i b) (by decide)
    fun _ hi => microStep_stage_key s (by omega) _

theorem microRun_frame (s : State) (b : Bank) :
    microRun 22 (s.stage .frame 0 b) = s.stage .mix 0 (loadFrameBits s.variant s.flatch 22 b) :=
  microRun_phase (last := 21) (bankAt := fun i => loadFrameBits s.variant s.flatch i b) (by decide)
    fun _ hi => microStep_stage_frame s (by omega) _

theorem microRun_mix (s : State) (b : Bank) :
    microRun 100 (s.stage .mix 0 b) = (s.stage .mix 99 (mixFor s.variant 100 b)).mixDone :=
  microRun_phase (last := 99) (bankAt := fun i => mixFor s.variant i b) (by decide)
    fun i _ => microStep_stage_mix s i _

theorem microStep_prime {s : State} (h : s.phase = .prime) : s.microStep = s.primeStep := by
  rw [State.microStep, h]

/-- The micro-steps that end the setup: none in the Linear variant, PRIME in the NonLinear one. -/
theorem microRun_mixDone (s : State) (b : Bank) :
    microRun (variantBit s.variant).toNat (s.stage .mix 99 b).mixDone =
      (s.stage .idle 0 (match s.variant with | .linear => b | .nonLinear => storeDelay b)).setupDone := by
  have hv : (s.stage .mix 99 b).variant = s.variant := rfl
  rw [State.mixDone, hv]
  cases s.variant <;> rfl

/-- 43_key_setup.md R141: the micro-steps of a SETUP compute SETUP_FN of the latches. -/
theorem microRun_setup (s : State) :
    microRun (busyTime (.setup s.variant)) (s.stage .key 0 Bank.zeroed) =
      (s.stage .idle 0 (setupBank s.klatch s.flatch s.variant)).setupDone := by
  have htime : busyTime (.setup s.variant) = 64 + (22 + (100 + (variantBit s.variant).toNat)) := by
    cases s.variant <;> rfl
  rw [htime, microRun_add, microRun_key, microRun_add, microRun_frame, microRun_add, microRun_mix, microRun_mixDone]
  rfl

/-! ### The run of an accepted SETUP -/

/-- The state right after the acceptance of a SETUP, before its first micro-step (45_commands.md R173). -/
def State.setupStart (v : Variant) (s : State) : State :=
  { s.setupAtomic v with ready := false, busy := true, phase := .key, stepNo := 0, bank := Bank.zeroed }

theorem exec_setup_accepted (v : Variant) {s : State} (hb : s.busy = false) (hf : frameInRange s.frameReg = true) :
    exec (.setup v) s = .next (s.setupStart v) :=
  calc s.onCommand (State.setupAccept v)
    _ = s.setupAccept v := onCommand_idle _ s hb
    _ = .next (s.setupStart v) := if_pos hf

theorem microRun_setupStart (v : Variant) (s : State) :
    microRun (busyTime (.setup v)) (s.setupStart v) = s.setupAtomic v := microRun_setup (s.setupStart v)

theorem Countdown.microRun_of_add {k n : Nat} {s : State} (h : Countdown (k + n) s) : Countdown n (microRun k s) := by
  induction k generalizing s with
  | zero => rwa [Nat.zero_add] at h
  | succ k ih =>
    rw [Nat.succ_add] at h
    exact ih h.microStep

/-- A command is busy up to its last micro-step. -/
theorem Countdown.microRun_busy {n : Nat} {s : State} (h : Countdown n s) (k : Nat) (hk : k < n) :
    (microRun k s).busy = true := by
  obtain ⟨m, rfl⟩ := Nat.exists_eq_add_of_lt hk
  exact (Countdown.microRun_of_add (n := m + 1) h).busy_of_succ

theorem microRun_own (n : Nat) (h r d) (s : State) : microRun n (s.own h r d) = (microRun n s).own h r d := by
  have hs : microRun n s = (microRun n s).outside s.err s.keyReg s.frameReg s.host s.rdata s.draws :=
    microRun_outside n s.err s.keyReg s.frameReg s.host s.rdata s.draws s
  rw [show s.own h r d = s.outside s.err s.keyReg s.frameReg h r d from rfl, microRun_outside, hs]
  rfl

/-- Up to the edge of a cycle of an idle host. -/
theorem sampled_done {s : State} (h : s.host = []) : s.sampled = s.own [] (Config.idleRdata s.draws) (s.draws + 1) := by
  have hread : s.portRead idlePins = s.own [] (Config.idleRdata s.draws) (s.draws + 1) := by
    rw [← h]
    rfl
  rw [State.sampled, pins_of_done h, hread]
  rfl

/-- A step with an idle host: the sequencer's part of the edge alone. -/
theorem step_done {s : State} (h : s.host = []) :
    step s = .next (s.sequencerEdge.own [] (Config.idleRdata s.draws) (s.draws + 1)) := by
  have hpins := pins_of_done h
  rw [step_no_command s (by rw [hpins]; rfl) (by rw [hpins]; decide), hpins, sampled_done h, plainEdge_own]
  rfl

/-- With an idle host a run within a command is its micro-steps, and nothing of the CORE is outside them. -/
theorem runSteps_busy_done (n : Nat) {s : State} (hb : ∀ k, k < n → (microRun k s).busy = true) (hhost : s.host = []) :
    ∃ r d, runSteps n s = .next ((microRun n s).own [] r d) := by
  induction n generalizing s with
  | zero => exact ⟨s.rdata, s.draws, by rw [← hhost]; rfl⟩
  | succ n ih =>
    have hstep := step_done hhost
    have hbusy : s.busy = true := hb 0 (Nat.succ_pos n)
    rw [sequencerEdge_busy hbusy] at hstep
    obtain ⟨r, d, hrun⟩ := ih (s := s.microStep.own [] (Config.idleRdata s.draws) (s.draws + 1))
      (fun k hk => by rw [microRun_own]; exact hb (k + 1) (Nat.succ_lt_succ hk)) rfl
    refine ⟨r, d, ?_⟩
    rw [runSteps_succ_of_step hstep, hrun, microRun_own]
    rfl

/-- What is outside a command's micro-steps is no element a running command reads or writes. -/
theorem sameCommand_outside (e k f h r d) (s : State) : SameCommand (s.outside e k f h r d) s := rfl

/-! ### The statements -/

/-- Settles O29: the run is the micro-steps, and these reach the atomic transition phase by phase. -/
theorem setupRunsSetupFunction : Obligations.SetupRunsSetupFunction := by
  have busy_until_done {v : Variant} {s : State} (hb : s.busy = false) (hf : frameInRange s.frameReg = true) :
      ∀ k, k < busyTime (.setup v) → (microRun k (s.setupStart v)).busy = true :=
    (countdown_of_exec hb (exec_setup_accepted v hb hf) rfl).microRun_busy
  refine ⟨fun v s t hb hf hst hhost => ?_, fun v s t hb hf hst hhost => ?_⟩
  all_goals cases (exec_setup_accepted v hb hf).symm.trans hst
  · obtain ⟨e, k, f, h, r, d, hrun⟩ := runSteps_busy _ _ (busy_until_done hb hf) hhost
    rw [microRun_setupStart] at hrun
    exact ⟨_, hrun, rfl, sameCommand_outside e k f h r d _⟩
  · obtain ⟨r, d, hrun⟩ := runSteps_busy_done _ (busy_until_done hb hf) hhost
    rw [microRun_setupStart] at hrun
    exact ⟨_, hrun, sameCore_own _ [] r d⟩

/-- Settles O25: the KEY step's bank is a CLOCK and the XOR of its bit. -/
theorem keyBitsInOrder : Obligations.KeyBitsInOrder := by
  refine ⟨fun k i h => ?_, fun s hphase _ => ?_⟩
  · rw [← keyOperand_bit k h (Nat.mod_lt i (by decide)), Nat.div_add_mod]
  · rw [microStep_bank_key hphase]
    exact xorBit_clock s.variant false (s.klatch.getLsbD s.stepNo.toNat) s.bank

/-- Settles O26: the FRAME step's bank is a CLOCK, loaded on step 21, and the XOR of its bit. -/
theorem frameBitsInOrder : Obligations.FrameBitsInOrder := by
  refine ⟨fun f _ hi => frameOperand_bit f hi, fun s hphase _ => ?_⟩
  rw [microStep_bank_frame hphase]
  exact xorBit_clock s.variant (decide (s.stepNo.toNat = 21)) (s.flatch.getLsbD s.stepNo.toNat) s.bank

/-- Settles O27: step 21 is the loaded cycle. -/
theorem forcedBitsAfterLoadedCycle : Obligations.ForcedBitsAfterLoadedCycle := by
  intro s hphase hstep hvariant
  rw [microStep_bank_frame hphase, hstep, hvariant]
  exact frameStepBank_forced s.flatch s.bank

/-- Settles O28: PRIME's micro-step is `State.primeStep`. -/
theorem primeWritesDelayOnly : Obligations.PrimeWritesDelayOnly := fun _ hphase => microStep_prime hphase

end Sys2Proof.Machine
end

section
/-! PROOFS. The keystream: the zero bank in the Linear variant, EMIT by its bits, the delay of the NonLinear output, and
the keystream as one sequence that the bursts are cut from; then the statements of 44_keystream.md. -/

namespace Sys2Proof.Machine

/-! ### The zero bank of the Linear variant -/

/-- Without forced bits nothing sets a bit in a register of zeros: its feedback is 0. -/
theorem clockOne_zero {w : Nat} (mask taps : BitVec w) : clockOne 0#w mask taps 0#w = 0#w := by
  have feedback : parity 0#w = false := parityBelow_zero w w
  simp [clockOne, feedback]

/-- Each register is held or clocked, and stays zero both ways. -/
theorem clock_linear_zeroed (forceAll loaded : Bool) : clock .linear forceAll loaded Bank.zeroed = Bank.zeroed := by
  rw [clock_linear_of_enables rfl]
  simp [Bank.zeroed, clk1, clk2, clk3, clockOne_zero]

theorem mixFor_linear_zeroed (n : Nat) : mixFor .linear n Bank.zeroed = Bank.zeroed := by
  induction n with
  | zero => rfl
  | succ n ih => rw [mixFor, ih, clock_linear_zeroed]

/-- A Linear generation step moves the bank as a normal CLOCK does (44_keystream.md R150). -/
theorem bankAfter_linear (n : Nat) (b : Bank) : bankAfter .linear n b = mixFor .linear n b := by
  induction n with
  | zero => rfl
  | succ n ih => rw [bankAfter, genStep_linear_bank, ih, mixFor]

/-- 44_keystream.md R150: no delay. -/
theorem streamBit_linear (b : Bank) (i : Nat) : streamBit .linear b i = topBits (bankAfter .linear (i + 1) b) := rfl

/-! ### NLV by its bits -/

theorem isSet_not_and_bit {w : Nat} (x : BitVec w) (k : Nat) (hk : k < w) :
    isSet (~~~x &&& BitVec.twoPow w k) = !x.getLsbD k := by
  rw [isSet_and_bit _ k hk, BitVec.getLsbD_not, decide_eq_true hk, Bool.true_and]

theorem majorityTerm1_eq (b : Bank) :
    majorityTerm1 b = ((b.r1.getLsbD 15 && !b.r1.getLsbD 14) || (b.r1.getLsbD 15 && b.r1.getLsbD 12) ||
      (!b.r1.getLsbD 14 && b.r1.getLsbD 12)) := by
  have bit15 : isSet (b.r1 &&& 0x8000) = b.r1.getLsbD 15 := isSet_and_bit b.r1 15 (by decide)
  have bit14 : isSet (~~~b.r1 &&& 0x4000) = !b.r1.getLsbD 14 := isSet_not_and_bit b.r1 14 (by decide)
  have bit12 : isSet (b.r1 &&& 0x1000) = b.r1.getLsbD 12 := isSet_and_bit b.r1 12 (by decide)
  rw [majorityTerm1, majority_eq, bit15, bit14, bit12]

theorem majorityTerm2_eq (b : Bank) :
    majorityTerm2 b = ((!b.r2.getLsbD 16 && b.r2.getLsbD 13) || (!b.r2.getLsbD 16 && b.r2.getLsbD 9) ||
      (b.r2.getLsbD 13 && b.r2.getLsbD 9)) := by
  have bit16 : isSet (~~~b.r2 &&& 0x10000) = !b.r2.getLsbD 16 := isSet_not_and_bit b.r2 16 (by decide)
  have bit13 : isSet (b.r2 &&& 0x2000) = b.r2.getLsbD 13 := isSet_and_bit b.r2 13 (by decide)
  have bit9 : isSet (b.r2 &&& 0x0200) = b.r2.getLsbD 9 := isSet_and_bit b.r2 9 (by decide)
  rw [majorityTerm2, majority_eq, bit16, bit13, bit9]

theorem majorityTerm3_eq (b : Bank) :
    majorityTerm3 b = ((b.r3.getLsbD 18 && b.r3.getLsbD 16) || (b.r3.getLsbD 18 && !b.r3.getLsbD 13) ||
      (b.r3.getLsbD 16 && !b.r3.getLsbD 13)) := by
  have bit18 : isSet (b.r3 &&& 0x40000) = b.r3.getLsbD 18 := isSet_and_bit b.r3 18 (by decide)
  have bit16 : isSet (b.r3 &&& 0x10000) = b.r3.getLsbD 16 := isSet_and_bit b.r3 16 (by decide)
  have bit13 : isSet (~~~b.r3 &&& 0x2000) = !b.r3.getLsbD 13 := isSet_not_and_bit b.r3 13 (by decide)
  rw [majorityTerm3, majority_eq, bit18, bit16, bit13]

/-! ### The delay of the NonLinear output -/

/-- NLV reads r1, r2 and r3 only (44_keystream.md R151). -/
@[simp] theorem nlv_storeDelay (b : Bank) : nlv (storeDelay b) = nlv b := rfl

/-- The output bit is DELAY as the step found it: the step's CLOCK does not touch it (44_keystream.md R158). -/
theorem streamBit_nonLinear (b : Bank) (i : Nat) : streamBit .nonLinear b i = (bankAfter .nonLinear i b).delay :=
  clock_delay .nonLinear false false _

/-- A generation step ends with DELAY <- NLV() (44_keystream.md R151). -/
theorem bankAfter_nonLinear_succ (n : Nat) (b : Bank) :
    bankAfter .nonLinear (n + 1) b = storeDelay (clock .nonLinear false false (bankAfter .nonLinear n b)) := rfl

theorem bankAfter_nonLinear_delay {n : Nat} (hn : 0 < n) (b : Bank) :
    (bankAfter .nonLinear n b).delay = nlv (bankAfter .nonLinear n b) := by
  obtain ⟨m, rfl⟩ := Nat.exists_eq_add_one.mpr hn
  rw [bankAfter_nonLinear_succ, storeDelay_delay, nlv_storeDelay]

/-! ### The keystream as one sequence, and the bursts cut from it -/

theorem bankAfter_add (v : Variant) (m n : Nat) (b : Bank) :
    bankAfter v (m + n) b = bankAfter v n (bankAfter v m b) := by
  induction n with
  | zero => rfl
  | succ n ih => rw [← Nat.add_assoc, bankAfter, bankAfter, ih]

/-- The keystream from the bank after m steps is the rest of the keystream (44_keystream.md R157). -/
theorem streamBit_bankAfter (v : Variant) (m i : Nat) (b : Bank) :
    streamBit v (bankAfter v m b) i = streamBit v b (m + i) := by
  rw [streamBit, streamBit, bankAfter_add]

theorem cell_fillBurst (f : Nat → Bool) (n : Nat) {i : Nat} (hi : i < 114) :
    cell (fillBurst f n) i = (decide (i < n) && f i) := by
  induction n with
  | zero => rw [fillBurst, cell_zero, decide_eq_false (Nat.not_lt_zero i), Bool.false_and]
  | succ n ih =>
    rw [fillBurst, cell_storeCell, ih]
    by_cases hin : i = n
    · subst hin
      simp [hi]
    · have : i < n + 1 ↔ i < n := by omega
      simp [hin, this]

/-- A full burst. -/
theorem cell_fillBurst_full (f : Nat → Bool) {i : Nat} (hi : i < 114) : cell (fillBurst f 114) i = f i := by
  rw [cell_fillBurst f 114 hi, decide_eq_true hi, Bool.true_and]

section
variable (s : State) {i : Nat} (hi : i < 114)
include hi

theorem cell_genDualAtomic_abBits : cell s.genDualAtomic.abBits i = streamBit s.variant s.bank i :=
  cell_fillBurst_full (streamBit s.variant s.bank) hi

theorem cell_genDualAtomic_baBits : cell s.genDualAtomic.baBits i = streamBit s.variant s.bank (114 + i) :=
  cell_fillBurst_full (fun i => streamBit s.variant s.bank (114 + i)) hi

theorem cell_genSingleAtomic_sglBits : cell s.genSingleAtomic.sglBits i = streamBit s.variant s.bank i :=
  cell_fillBurst_full (streamBit s.variant s.bank) hi

end

/-- Where a GEN_DUAL leaves the keystream: 228 bits on. -/
theorem streamBit_genDualAtomic (s : State) (i : Nat) :
    streamBit s.genDualAtomic.variant s.genDualAtomic.bank i = streamBit s.variant s.bank (228 + i) :=
  streamBit_bankAfter s.variant 228 i s.bank

/-- Where a GEN_SINGLE leaves the keystream: 114 bits on. -/
theorem streamBit_genSingleAtomic (s : State) (i : Nat) :
    streamBit s.genSingleAtomic.variant s.genSingleAtomic.bank i = streamBit s.variant s.bank (114 + i) :=
  streamBit_bankAfter s.variant 114 i s.bank

/-! ### The statements -/

/-- Settles O24: CLOCK keeps the zero bank, and a generation step moves the bank by one CLOCK. -/
theorem zeroLinearBankIsFixed : Obligations.ZeroLinearBankIsFixed := by
  have stays (n : Nat) : bankAfter .linear n Bank.zeroed = Bank.zeroed := by
    rw [bankAfter_linear, mixFor_linear_zeroed]
  refine ⟨mixFor_linear_zeroed, fun n => ⟨stays n, ?_⟩⟩
  rw [streamBit_linear, stays]
  rfl

/-- Settles O32: NLV through its three majority terms, and the output bits through DELAY. -/
theorem nonLinearOutputIsDelayed : Obligations.NonLinearOutputIsDelayed := by
  refine ⟨fun b => rfl, fun b => ?_, fun b => streamBit_nonLinear b 0, fun b i => ?_,
    fun b n hn => bankAfter_nonLinear_delay hn b, streamBit_linear⟩
  · rw [nlv, majorityTerm1_eq, majorityTerm2_eq, majorityTerm3_eq, topBits]
  · rw [streamBit_nonLinear, bankAfter_nonLinear_delay (Nat.succ_pos i)]

/-- Settles O36: every burst is a piece of the keystream, and each command starts where the one before it stopped. -/
theorem commandsContinueTheStream : Obligations.CommandsContinueTheStream := by
  intro s i hi
  refine ⟨?_, ?_, ?_, ?_⟩
  · rw [cell_genDualAtomic_abBits _ hi, streamBit_genDualAtomic]
  · rw [cell_genDualAtomic_baBits _ hi, streamBit_genDualAtomic, ← Nat.add_assoc]
  · rw [cell_genSingleAtomic_sglBits s hi, cell_genDualAtomic_abBits s hi]
  · rw [cell_genDualAtomic_abBits _ hi, streamBit_genSingleAtomic, cell_genDualAtomic_baBits s hi]

/-- Settles O37: PACK's bits are the burst's cells, and a burst has no cell from 114 on. -/
theorem packIsMsbFirst : Obligations.PackIsMsbFirst := by
  intro bits j b _ hb
  rw [pack_bit bits j hb, cell]
  split
  case isTrue => rfl
  case isFalse hbeyond => exact BitVec.getLsbD_of_ge bits _ (by omega)

end Sys2Proof.Machine
end

section
/-! PROOFS. The commands: a burst bit by bit, the states that an accepted GEN_DUAL or GEN_SINGLE goes through, what a
running command can see of the host, and the edges of the commands while BUSY = 0; then the statements of
45_commands.md. -/

namespace Sys2Proof.Machine

/-! ### A burst bit by bit -/

/-- A generation step of any burst: one bit of keystream, stored in cell STEP of the phase's own buffer
(44_keystream.md R153). -/
theorem microStep_gen {s : State} (h : s.phase ∈ genPhases) :
    s.microStep =
      { s with
        bank := (genStep s.variant s.bank).2
        abBits := if s.phase = .genAB then storeCell s.abBits s.stepNo.toNat (genStep s.variant s.bank).1 else s.abBits
        baBits := if s.phase = .genBA then storeCell s.baBits s.stepNo.toNat (genStep s.variant s.bank).1 else s.baBits
        sglBits :=
          if s.phase = .genS then storeCell s.sglBits s.stepNo.toNat (genStep s.variant s.bank).1 else s.sglBits
        phase := if s.stepNo.toNat = 113 then nextPhase s.variant s.phase else s.phase
        stepNo := if s.stepNo.toNat = 113 then 0 else s.stepNo + 1
        busy := s.busy && decide (s.stepNo.toNat ≠ 113 ∨ s.phase = .genAB) } := by
  cases hphase : s.phase with
  | idle | key | frame | mix | prime => simp [hphase] at h
  | genAB =>
    simp only [State.microStep, hphase, State.genABStep, State.countTo]
    split <;> simp [State.enterPhase, State.nextStep, nextPhase, *]
  | genBA =>
    simp only [State.microStep, hphase, State.genBAStep, State.countTo]
    split <;> simp [State.endCommand, State.nextStep, nextPhase, *]
  | genS =>
    simp only [State.microStep, hphase, State.genSStep, State.countTo]
    split <;> simp [State.endCommand, State.nextStep, nextPhase, *]

/-- STEP counts the bits of a burst, and starts again after 114 of them (10_state.md R38). -/
theorem burst_stepNo_toNat (k : Nat) : (BitVec.ofNat 7 (k % 114)).toNat = k % 114 := by
  rw [BitVec.toNat_ofNat]
  omega

theorem burst_stepNo_succ (k : Nat) :
    (if k % 114 = 113 then 0 else BitVec.ofNat 7 (k % 114) + 1) = BitVec.ofNat 7 ((k + 1) % 114) := by
  split
  next hlast =>
    rw [show (k + 1) % 114 = 0 by omega]
    rfl
  next hlast =>
    rw [show (k + 1) % 114 = k % 114 + 1 by omega, BitVec.ofNat_add]
    rfl

/-! ### The states of a GEN_DUAL and of a GEN_SINGLE -/

/-- The state `k` bits into a GEN_DUAL that was accepted in `s` (45_commands.md R176). -/
def State.genDualAt (s : State) (k : Nat) : State :=
  { s with
    err := 0
    busy := decide (k < 228)
    bank := bankAfter s.variant k s.bank
    abBits := fillBurst (streamBit s.variant s.bank) (min k 114)
    baBits := fillBurst (fun i => streamBit s.variant s.bank (114 + i)) (k - 114)
    phase := if k < 114 then .genAB else if k < 228 then .genBA else .idle
    stepNo := BitVec.ofNat 7 (k % 114) }

/-- The state `k` bits into a GEN_SINGLE that was accepted in `s` (45_commands.md R178). -/
def State.genSingleAt (s : State) (k : Nat) : State :=
  { s with
    err := 0
    busy := decide (k < 114)
    bank := bankAfter s.variant k s.bank
    sglBits := fillBurst (streamBit s.variant s.bank) k
    phase := if k < 114 then .genS else .idle
    stepNo := BitVec.ofNat 7 (k % 114) }

section
variable (s : State) {k : Nat}

theorem microStep_genDualAt_AB (hk : k < 114) : (s.genDualAt k).microStep = s.genDualAt (k + 1) := by
  have hphase : (s.genDualAt k).phase = .genAB := if_pos hk
  have hstep : (s.genDualAt k).stepNo.toNat = k % 114 := burst_stepNo_toNat k
  have hbusy : decide (k < 228) = decide (k + 1 < 228) := by
    rw [decide_eq_decide]
    omega
  have hnext : (if k % 114 = 113 then .genBA else .genAB) =
      if k + 1 < 114 then Phase.genAB else if k + 1 < 228 then .genBA else .idle := by
    by_cases hlast : k = 113
    · subst hlast
      rfl
    · rw [if_neg (by omega), if_pos (by omega)]
  have hab : storeCell (fillBurst (streamBit s.variant s.bank) (min k 114)) (k % 114) (streamBit s.variant s.bank k) =
      fillBurst (streamBit s.variant s.bank) (min (k + 1) 114) := by
    rw [Nat.mod_eq_of_lt hk, min_eq_left hk.le, min_eq_left (Nat.succ_le_of_lt hk), fillBurst]
  have hba : k - 114 = k + 1 - 114 := by omega
  rw [microStep_gen (by rw [hphase]; decide), hphase, hstep]
  simp only [State.genDualAt, State.mk.injEq, true_and, and_true, reduceCtorEq, if_false, if_true, or_true,
    decide_true, Bool.and_true]
  exact ⟨rfl, hbusy, hnext, burst_stepNo_succ k, hab, by rw [hba]⟩

theorem microStep_genDualAt_BA (hab : 114 ≤ k) (hk : k < 228) :
    (s.genDualAt k).microStep = s.genDualAt (k + 1) := by
  have hphase : (s.genDualAt k).phase = .genBA := (if_neg hab.not_gt).trans (if_pos hk)
  have hstep : (s.genDualAt k).stepNo.toNat = k % 114 := burst_stepNo_toNat k
  have hbusy : (decide (k < 228) && decide (k % 114 ≠ 113)) = decide (k + 1 < 228) := by
    rw [← Bool.decide_and, decide_eq_decide]
    omega
  have hnext : (if k % 114 = 113 then .idle else .genBA) =
      if k + 1 < 114 then Phase.genAB else if k + 1 < 228 then .genBA else .idle := by
    by_cases hlast : k = 227
    · subst hlast
      rfl
    · rw [if_neg (by omega), if_neg (by omega), if_pos (by omega)]
  have hba : storeCell (fillBurst (fun i => streamBit s.variant s.bank (114 + i)) (k - 114)) (k % 114)
        (streamBit s.variant s.bank k) =
      fillBurst (fun i => streamBit s.variant s.bank (114 + i)) (k + 1 - 114) := by
    obtain ⟨i, rfl⟩ := Nat.exists_eq_add_of_le hab
    rw [Nat.add_mod_left, Nat.mod_eq_of_lt (by omega), Nat.add_assoc, Nat.add_sub_cancel_left, Nat.add_sub_cancel_left,
      fillBurst]
  rw [microStep_gen (by rw [hphase]; decide), hphase, hstep]
  simp only [State.genDualAt, State.mk.injEq, true_and, and_true, reduceCtorEq, if_false, if_true, or_false,
    min_eq_right hab, min_eq_right (hab.trans k.le_succ)]
  exact ⟨rfl, hbusy, hnext, burst_stepNo_succ k, hba⟩

theorem microStep_genSingleAt (hk : k < 114) : (s.genSingleAt k).microStep = s.genSingleAt (k + 1) := by
  have hphase : (s.genSingleAt k).phase = .genS := if_pos hk
  have hstep : (s.genSingleAt k).stepNo.toNat = k % 114 := burst_stepNo_toNat k
  have hbusy : (decide (k < 114) && decide (k % 114 ≠ 113)) = decide (k + 1 < 114) := by
    rw [← Bool.decide_and, decide_eq_decide]
    omega
  have hnext : (if k % 114 = 113 then .idle else .genS) = if k + 1 < 114 then Phase.genS else .idle := by
    by_cases hlast : k = 113
    · subst hlast
      rfl
    · rw [if_neg (by omega), if_pos (by omega)]
  have hsgl : storeCell (fillBurst (streamBit s.variant s.bank) k) (k % 114) (streamBit s.variant s.bank k) =
      fillBurst (streamBit s.variant s.bank) (k + 1) := by
    rw [Nat.mod_eq_of_lt hk, fillBurst]
  rw [microStep_gen (by rw [hphase]; decide), hphase, hstep]
  simp only [State.genSingleAt, State.mk.injEq, true_and, and_true, reduceCtorEq, if_false, if_true, or_false]
  exact ⟨rfl, hbusy, hnext, burst_stepNo_succ k, hsgl⟩

end

/-! ### Runs through given states -/

/-- A command of `n` micro-steps that goes through these states. -/
structure GoesThrough (n : Nat) (stateAt : Nat → State) : Prop where
  busy : ∀ k, k < n → (stateAt k).busy = true
  microStep : ∀ k, k < n → (stateAt k).microStep = stateAt (k + 1)

namespace GoesThrough

variable {n : Nat} {stateAt : Nat → State}

theorem microRun (h : GoesThrough n stateAt) {k : Nat} (hk : k ≤ n) : microRun k (stateAt 0) = stateAt k := by
  induction k with
  | zero => rfl
  | succ k ih => rw [microRun_succ, ih (Nat.le_of_succ_le hk), h.microStep k hk]

theorem microRun_busy (h : GoesThrough n stateAt) {k : Nat} (hk : k < n) :
    (Machine.microRun k (stateAt 0)).busy = true := by
  rw [h.microRun hk.le, h.busy k hk]

/-- Whatever the host does short of reset. -/
theorem runSteps (h : GoesThrough n stateAt) {k : Nat} (hk : k ≤ n)
    (hhost : noResetFor k (stateAt 0).host = true) :
    ∃ e key f host r d, runSteps k (stateAt 0) = .next ((stateAt k).outside e key f host r d) := by
  rw [← h.microRun hk]
  exact runSteps_busy k _ (fun j hj => h.microRun_busy (hj.trans_le hk)) hhost

/-- With an idle host nothing of the CORE differs. -/
theorem runSteps_done (h : GoesThrough n stateAt) (hhost : (stateAt 0).host = []) :
    ∃ u, Machine.runSteps n (stateAt 0) = .next u ∧ SameCore u (stateAt n) := by
  obtain ⟨r, d, hrun⟩ := runSteps_busy_done n (fun j hj => h.microRun_busy hj) hhost
  rw [h.microRun le_rfl] at hrun
  exact ⟨_, hrun, sameCore_own _ [] r d⟩

end GoesThrough

theorem genDual_goesThrough (s : State) : GoesThrough 228 s.genDualAt where
  busy _ hk := decide_eq_true hk
  microStep k hk :=
    (lt_or_ge k 114).elim (microStep_genDualAt_AB s) fun hab => microStep_genDualAt_BA s hab hk

theorem genSingle_goesThrough (s : State) : GoesThrough 114 s.genSingleAt where
  busy _ hk := decide_eq_true hk
  microStep _ hk := microStep_genSingleAt s hk

theorem exec_genDual_accepted {s : State} (hb : s.busy = false) (hr : s.ready = true) :
    exec .genDual s = .next (s.genDualAt 0) :=
  calc s.onCommand State.genDualAccept
    _ = s.genDualAccept := onCommand_idle _ s hb
    _ = .next (s.genDualAt 0) := if_pos hr

theorem exec_genSingle_accepted {s : State} (hb : s.busy = false) (hr : s.ready = true) (hv : s.variant = .linear) :
    exec .genSingle s = .next (s.genSingleAt 0) := by
  rcases genSingleAccept_cases s with ⟨_, _, h⟩ | ⟨_, hv', _⟩ | ⟨hr', _⟩
  · exact (onCommand_idle _ s hb).trans h
  · cases hv.symm.trans hv'
  · cases hr.symm.trans hr'

/-! ### A running command and the host -/

/-- States that agree on what a running command reads and writes differ in what is outside it at most. -/
theorem eq_outside_of_sameCommand {s t : State} (h : SameCommand s t) :
    t = s.outside t.err t.keyReg t.frameReg t.host t.rdata t.draws := by
  unfold SameCommand SameCore at h
  cases s
  cases t
  simp_all [State.outside]

/-! ### The edges of the commands while BUSY = 0 -/

/-- What 45_commands.md R171's table says of a CMD write while BUSY = 0. -/
structure CommandOutcome (b : Byte) (s t : State) : Prop where
  busy_iff : t.busy = true ↔ t.err = 0 ∧ decode b ≠ .command .nop
  frame : t.busy = false → SameCore t { s with err := t.err, ready := t.ready }
  ready_iff : t.ready = true ↔ s.ready = true ∧ ∀ var, decode b ≠ .command (.setup var)
  variant : t.variant = s.variant ∨ (decode b = .command (.setup t.variant) ∧ t.busy = true)

namespace CommandOutcome

variable {b : Byte} {s : State}

/-- NOP, a rejected GEN command and an illegal byte write ERR only. -/
theorem errOnly (hb : s.busy = false) {e : BitVec 3} (he : e ≠ 0 ∨ decode b = .command .nop)
    (hsetup : ∀ var, decode b ≠ .command (.setup var)) : CommandOutcome b s { s with err := e } where
  busy_iff := ⟨fun h => absurd (hb.symm.trans h) (by decide), fun ⟨hzero, hne⟩ => (he.elim (· hzero) hne).elim⟩
  frame _ := rfl
  ready_iff := ⟨fun h => ⟨h, hsetup⟩, And.left⟩
  variant := .inl rfl

theorem setupRejected (hb : s.busy = false) {v : Variant} (hd : decode b = .command (.setup v)) :
    CommandOutcome b s { s with err := 1, ready := false } where
  busy_iff := ⟨fun h => absurd (hb.symm.trans h) (by decide), fun ⟨he, _⟩ => absurd he (show 1#3 ≠ 0 by decide)⟩
  frame _ := rfl
  ready_iff := ⟨fun h => absurd h Bool.false_ne_true, fun ⟨_, hsetup⟩ => absurd hd (hsetup v)⟩
  variant := .inl rfl

theorem setupAccepted {t : State} {v : Variant} (hd : decode b = .command (.setup v)) (hbusy : t.busy = true)
    (herr : t.err = 0) (hready : t.ready = false) (hv : t.variant = v) : CommandOutcome b s t where
  busy_iff := ⟨fun _ => ⟨herr, by rw [hd]; nofun⟩, fun _ => hbusy⟩
  frame h := absurd (hbusy.symm.trans h) (by decide)
  ready_iff := ⟨fun h => absurd (hready.symm.trans h) (by decide), fun ⟨_, hsetup⟩ => absurd hd (hsetup v)⟩
  variant := .inr ⟨hv ▸ hd, hbusy⟩

theorem genAccepted {t : State} {i : Instr} (hd : decode b = .command i) (hi : i = .genDual ∨ i = .genSingle)
    (hbusy : t.busy = true) (herr : t.err = 0) (hready : t.ready = s.ready) (hv : t.variant = s.variant) :
    CommandOutcome b s t where
  busy_iff := ⟨fun _ => ⟨herr, by rw [hd]; rcases hi with rfl | rfl <;> nofun⟩, fun _ => hbusy⟩
  frame h := absurd (hbusy.symm.trans h) (by decide)
  ready_iff := by
    have hsetup : ∀ var, decode b ≠ .command (.setup var) := by rw [hd]; rcases hi with rfl | rfl <;> nofun
    rw [hready]
    exact ⟨fun h => ⟨h, hsetup⟩, And.left⟩
  variant := .inl hv

end CommandOutcome

theorem exec_outcome {b : Byte} {i : Instr} {s : State} (hd : decode b = .command i) (hb : s.busy = false) :
    ∃ t, exec i s = .next t ∧ CommandOutcome b s t := by
  rcases exec_idle_cases i s hb with ⟨rfl, h⟩ | ⟨v, rfl, _, h⟩ | ⟨v, rfl, _, h⟩ | ⟨rfl, _, h⟩ | ⟨rfl, _, _, h⟩ |
    ⟨rfl, _, _, h⟩ | ⟨rfl | rfl, _, h⟩
  · exact ⟨_, h, .errOnly hb (.inr hd) (by rw [hd]; nofun)⟩
  · exact ⟨_, h, .setupAccepted hd rfl rfl rfl rfl⟩
  · exact ⟨_, h, .setupRejected hb hd⟩
  · exact ⟨_, h, .genAccepted hd (.inl rfl) rfl rfl rfl rfl⟩
  · exact ⟨_, h, .genAccepted hd (.inr rfl) rfl rfl rfl rfl⟩
  · exact ⟨_, h, .errOnly hb (.inl (by decide)) (by rw [hd]; nofun)⟩
  · exact ⟨_, h, .errOnly hb (.inl (by decide)) (by rw [hd]; nofun)⟩
  · exact ⟨_, h, .errOnly hb (.inl (by decide)) (by rw [hd]; nofun)⟩

theorem commandWrite_outcome (b : Byte) {s : State} (hb : s.busy = false) :
    ∃ t, commandWrite b s = .next t ∧ CommandOutcome b s t := by
  rcases commandWrite_cases b s with ⟨i, hd, h⟩ | ⟨w, hd, h⟩
  · rw [h]
    exact exec_outcome hd hb
  · exact ⟨_, h.trans (onCommand_idle _ s hb), .errOnly hb (.inl (by decide)) (by rw [hd]; nofun)⟩

/-! ### What the edge of each command writes at most -/

section
variable {s t : State} (hb : s.busy = false)
include hb

theorem exec_nop_writes (hst : exec .nop s = .next t) : ∃ e, t = { s with err := e } := by
  cases (onCommand_idle _ s hb).symm.trans hst
  exact ⟨_, rfl⟩

theorem exec_setup_writes {v : Variant} (hst : exec (.setup v) s = .next t) :
    ∃ e va r b kl fl bk ab ba sg p n, t = { s with
      err := e, variant := va, ready := r, busy := b, klatch := kl, flatch := fl, bank := bk, abBits := ab
      baBits := ba, sglBits := sg, phase := p, stepNo := n } := by
  have haccept := (onCommand_idle _ s hb).symm.trans hst
  rcases setupAccept_cases v s with ⟨_, h⟩ | ⟨_, h⟩
  all_goals
    cases h.symm.trans haccept
    exact ⟨_, _, _, _, _, _, _, _, _, _, _, _, rfl⟩

theorem exec_genDual_writes (hst : exec .genDual s = .next t) :
    ∃ e b ab ba p n, t = { s with err := e, busy := b, abBits := ab, baBits := ba, phase := p, stepNo := n } := by
  have haccept := (onCommand_idle _ s hb).symm.trans hst
  rcases genDualAccept_cases s with ⟨_, h⟩ | ⟨_, h⟩
  all_goals
    cases h.symm.trans haccept
    exact ⟨_, _, _, _, _, _, rfl⟩

theorem exec_genSingle_writes (hst : exec .genSingle s = .next t) :
    ∃ e b sg p n, t = { s with err := e, busy := b, sglBits := sg, phase := p, stepNo := n } := by
  have haccept := (onCommand_idle _ s hb).symm.trans hst
  rcases genSingleAccept_cases s with ⟨_, _, h⟩ | ⟨_, _, h⟩ | ⟨_, h⟩
  all_goals
    cases h.symm.trans haccept
    exact ⟨_, _, _, _, _, rfl⟩

/-- The operands and the model's own fields are written by no command. -/
theorem exec_keeps_operands_and_own {i : Instr} (hst : exec i s = .next t) :
    t.keyReg = s.keyReg ∧ t.frameReg = s.frameReg ∧ t.host = s.host ∧ t.rdata = s.rdata ∧ t.draws = s.draws := by
  cases i with
  | nop =>
    obtain ⟨e, rfl⟩ := exec_nop_writes hb hst
    exact ⟨rfl, rfl, rfl, rfl, rfl⟩
  | setup v =>
    obtain ⟨e, va, r, b, kl, fl, bk, ab, ba, sg, p, n, rfl⟩ := exec_setup_writes hb hst
    exact ⟨rfl, rfl, rfl, rfl, rfl⟩
  | genDual =>
    obtain ⟨e, b, ab, ba, p, n, rfl⟩ := exec_genDual_writes hb hst
    exact ⟨rfl, rfl, rfl, rfl, rfl⟩
  | genSingle =>
    obtain ⟨e, b, sg, p, n, rfl⟩ := exec_genSingle_writes hb hst
    exact ⟨rfl, rfl, rfl, rfl, rfl⟩

end

/-! ### The statements -/

/-- Settles O33: the run goes through `State.genDualAt`, whose buffers are filled cell by cell. -/
theorem genDualFillsBothBursts : Obligations.GenDualFillsBothBursts := by
  intro s t k hb hr hst hk hhost
  cases (exec_genDual_accepted hb hr).symm.trans hst
  obtain ⟨e, key, f, h, r, d, hrun⟩ := (genDual_goesThrough s).runSteps hk hhost
  refine ⟨_, hrun, rfl, fun i hi => ?_, fun i hi => ?_, rfl, hr, rfl, decide_eq_true_iff⟩
  · have hfilled : i < min k 114 ↔ i < k := by omega
    exact (cell_fillBurst _ _ hi).trans (by rw [decide_eq_decide.mpr hfilled])
  · have hfilled : i < k - 114 ↔ 114 + i < k := by omega
    exact (cell_fillBurst _ _ hi).trans (by rw [decide_eq_decide.mpr hfilled])

/-- Settles O34: the run goes through `State.genSingleAt`. -/
theorem genSingleFillsItsBurst : Obligations.GenSingleFillsItsBurst := by
  intro s t k hb hr hv hst hk hhost
  cases (exec_genSingle_accepted hb hr hv).symm.trans hst
  obtain ⟨e, key, f, h, r, d, hrun⟩ := (genSingle_goesThrough s).runSteps hk hhost
  rw [← hv]
  exact ⟨_, hrun, rfl, fun i hi => cell_fillBurst _ k hi, rfl, rfl, hr, decide_eq_true_iff⟩

/-- Settles O35: the last of the states that the command goes through is its atomic transition. -/
theorem generateRunsAtomicFunction : Obligations.GenerateRunsAtomicFunction := by
  refine ⟨fun s t hb hr hhost hst => ?_, fun s t hb hr hv hhost hst => ?_⟩
  · cases (exec_genDual_accepted hb hr).symm.trans hst
    exact (genDual_goesThrough s).runSteps_done hhost
  · cases (exec_genSingle_accepted hb hr hv).symm.trans hst
    exact (genSingle_goesThrough s).runSteps_done hhost

/-- Settles O58: both runs are the same micro-steps, with something else outside them. -/
theorem runningCommandIgnoresHost : Obligations.RunningCommandIgnoresHost := by
  intro n s s' hsame hbusy hhost hhost'
  have hs' := eq_outside_of_sameCommand hsame
  obtain ⟨e, k, f, h, r, d, hrun⟩ := runSteps_busy n s hbusy hhost
  obtain ⟨e', k', f', h', r', d', hrun'⟩ := runSteps_busy n s' (fun j hj => by
    rw [hs', microRun_outside]
    exact hbusy j hj) hhost'
  refine ⟨_, _, hrun, hrun', ?_⟩
  rw [hs', microRun_outside]
  exact sameCommand_outside e k f h r d (microRun n s)

/-- Settles O15: each case of the edge has this outcome. -/
theorem commandWriteOutcomes : Obligations.CommandWriteOutcomes := by
  intro v s hb
  obtain ⟨t, hst, ⟨busy_iff, frame, ready_iff, variant⟩⟩ := commandWrite_outcome v hb
  exact ⟨t, hst, busy_iff, frame, ready_iff, variant⟩

/-- Settles O16: an offset reads as before when the command's edge does not write the element it shows. -/
theorem commandFrame : Obligations.CommandFrame := by
  refine ⟨fun i s t hb hst => exec_keeps_operands_and_own hb hst, fun s t a hb hst ha => ?_,
    fun v s t a hb hst hstatus herr hab hba hsgl => ?_, fun s t hb hst => ?_, fun s t hb hst => ?_⟩
  · obtain ⟨e, rfl⟩ := exec_nop_writes hb hst
    exact windowRead_congr _ s a (fun _ => rfl) (fun h => absurd (BitVec.eq_of_toNat_eq h) ha) (fun _ => rfl)
      (fun _ => rfl) (fun _ => rfl) (fun _ => rfl)
  · obtain ⟨e, va, r, b, kl, fl, bk, ab, ba, sg, p, n, rfl⟩ := exec_setup_writes hb hst
    exact windowRead_congr _ s a (absurd · hstatus) (absurd · herr) (fun _ => rfl) (absurd · hab) (absurd · hba)
      (absurd · hsgl)
  · obtain ⟨e, b, ab, ba, p, n, rfl⟩ := exec_genDual_writes hb hst
    exact ⟨rfl, rfl, rfl, rfl, rfl, rfl, fun a hstatus herr hab hba =>
      windowRead_congr _ s a (absurd · hstatus) (absurd · herr) (fun _ => rfl) (absurd · hab) (absurd · hba)
        fun _ => rfl⟩
  · obtain ⟨e, b, sg, p, n, rfl⟩ := exec_genSingle_writes hb hst
    exact ⟨rfl, rfl, rfl, rfl, rfl, rfl, rfl, fun a hstatus herr hsgl =>
      windowRead_congr _ s a (absurd · hstatus) (absurd · herr) (fun _ => rfl) (fun _ => rfl) (fun _ => rfl)
        (absurd · hsgl)⟩

/-- Settles O6: NOP's acceptance writes ERR only, and a command while BUSY = 1 is dropped. -/
theorem nopClearsErrOnly : Obligations.NopClearsErrOnly :=
  ⟨rfl, fun s hb => onCommand_idle _ s hb, fun s hb => exec_busy .nop s hb⟩

/-- Settles O7: the state right after the acceptance is `State.setupStart`. -/
theorem setupAcceptance : Obligations.SetupAcceptance := fun v _ hb hf =>
  exec_setup_accepted v hb (by rw [frameInRange, hf]; rfl)

/-- Settles O9: the state right after the acceptance is the first that the command goes through. -/
theorem genDualAcceptance : Obligations.GenDualAcceptance := fun _ hb hr => exec_genDual_accepted hb hr

/-- Settles O10: the state right after the acceptance is the first that the command goes through. -/
theorem genSingleAcceptance : Obligations.GenSingleAcceptance := fun _ hb hr hv => exec_genSingle_accepted hb hr hv

end Sys2Proof.Machine
end

section
/-! PROOFS. The rejections: what each rejected command leaves, which frames are in range, and that no edge fails; then
the statements of 60_exceptions.md. -/

namespace Sys2Proof.Machine

/-! ### The rejected commands -/

theorem frame_out_of_range_iff (f : BitVec 24) : f.extractLsb' 22 2 ≠ 0 ↔ 2 ^ 22 ≤ f.toNat := by
  have hbits : (f.extractLsb' 22 2).toNat = f.toNat / 2 ^ 22 % 2 ^ 2 := by
    rw [BitVec.extractLsb'_toNat, Nat.shiftRight_eq_div_pow]
  have hlt := f.isLt
  rw [BitVec.toNat_ne, hbits, show (0 : BitVec 2).toNat = 0 from rfl]
  omega

theorem exec_setup_rejected (v : Variant) {s : State} (hb : s.busy = false) (hf : s.frameReg.extractLsb' 22 2 ≠ 0) :
    exec (.setup v) s = .next { s with err := 1, ready := false } :=
  calc s.onCommand (State.setupAccept v)
    _ = s.setupAccept v := onCommand_idle _ s hb
    _ = .next { s with err := 1, ready := false } := if_neg fun hrange => hf (beq_iff_eq.mp hrange)

/-- Both generate commands check for a session first (60_exceptions.md R194). -/
theorem exec_gen_notReady {i : Instr} (hi : i = .genDual ∨ i = .genSingle) {s : State} (hb : s.busy = false)
    (hr : s.ready = false) : exec i s = .next { s with err := 3 } := by
  have hnot : ¬s.ready = true := by simp [hr]
  rcases hi with rfl | rfl
  · exact (onCommand_idle State.genDualAccept s hb).trans (if_neg hnot)
  · exact (onCommand_idle State.genSingleAccept s hb).trans (if_neg hnot)

theorem exec_genSingle_nonLinear {s : State} (hb : s.busy = false) (hr : s.ready = true) (hv : s.variant = .nonLinear) :
    exec .genSingle s = .next { s with err := 4 } := by
  rcases genSingleAccept_cases s with ⟨_, hv', _⟩ | ⟨_, _, h⟩ | ⟨hr', _⟩
  · cases hv.symm.trans hv'
  · exact (onCommand_idle _ s hb).trans h
  · cases hr.symm.trans hr'

/-! ### No edge fails -/

theorem exec_next (i : Instr) (s : State) : ∃ t, exec i s = .next t := by
  cases hb : s.busy with
  | true => exact ⟨_, exec_busy i s hb⟩
  | false =>
    obtain ⟨t, h, _⟩ := exec_effect (encode i) i s (decode_encode i) hb
    exact ⟨t, h⟩

theorem commandWrite_next (v : Byte) (s : State) : ∃ t, commandWrite v s = .next t := by
  cases hb : s.busy with
  | true => exact ⟨_, commandWrite_busy v hb⟩
  | false =>
    obtain ⟨t, h, _⟩ := commandWrite_effect v s hb
    exact ⟨t, h⟩

theorem step_next (s : State) : ∃ t, step s = .next t := by
  cases hrst : s.pins.rst with
  | true => exact ⟨_, step_reset s hrst⟩
  | false =>
    by_cases hcmd : s.pins.we = true ∧ s.pins.addr = 0x00
    · rw [step_command s hrst hcmd.1 hcmd.2]
      exact commandWrite_next _ _
    · exact ⟨_, step_no_command s hrst hcmd⟩

/-! ### The codes that a command leaves -/

theorem CommandEffect.err_legal {b : Byte} {s t : State} (h : CommandEffect b s t) : t.err ≠ 2 ∧ t.err ≠ 7 := by
  cases h with
  | errOnly e he => exact he
  | setupRejected | setupAccepted | genDualAccepted | genSingleAccepted => exact ⟨by simp, by simp⟩

/-! ### The statements -/

/-- Settles O14: a write while BUSY = 1 or of an illegal byte has one outcome; a command checks in the order given. -/
theorem errorPriority : Obligations.ErrorPriority := by
  intro v s
  cases hb : s.busy with
  | true => exact ⟨_, commandWrite_busy v hb, rfl⟩
  | false =>
    rcases commandWrite_cases v s with ⟨i, hd, h⟩ | ⟨w, hd, h⟩
    · rw [h, hd]
      cases i with
      | nop => exact ⟨_, onCommand_idle _ s hb, rfl⟩
      | setup var =>
        by_cases hf : s.frameReg.extractLsb' 22 2 = 0
        · exact ⟨_, exec_setup_accepted var hb (beq_iff_eq.mpr hf), (if_pos hf).symm⟩
        · exact ⟨_, exec_setup_rejected var hb hf, (if_neg hf).symm⟩
      | genDual =>
        cases hr : s.ready with
        | true => exact ⟨_, exec_genDual_accepted hb hr, rfl⟩
        | false => exact ⟨_, exec_gen_notReady (.inl rfl) hb hr, rfl⟩
      | genSingle =>
        cases hr : s.ready with
        | false => exact ⟨_, exec_gen_notReady (.inr rfl) hb hr, rfl⟩
        | true =>
          cases hv : s.variant with
          | nonLinear => exact ⟨_, exec_genSingle_nonLinear hb hr hv, rfl⟩
          | linear => exact ⟨_, exec_genSingle_accepted hb hr hv, rfl⟩
    · rw [h, hd]
      exact ⟨_, onCommand_idle _ s hb, rfl⟩

/-- Settles O53: reset writes 0, a dropped write 5, a command a code of its own, and no other edge writes ERR. -/
theorem reservedErrCodesNeverWritten : Obligations.ReservedErrCodesNeverWritten := by
  intro s t h2 h7 hst
  cases step_effect hst with
  | reset => exact State.Inv.reset.err_legal
  | running _ e _ _ _ _ _ he =>
    rcases he with rfl | ⟨rfl, _⟩
    · exact ⟨h2, h7⟩
    · exact (by decide : (5 : BitVec 3) ≠ 2 ∧ (5 : BitVec 3) ≠ 7)
  | quiet => exact ⟨h2, h7⟩
  | command _ _ _ _ _ _ _ heff => exact heff.err_legal

/-- Settles O5: each kind of edge answers a next state. -/
theorem microStepsNeverFail : Obligations.MicroStepsNeverFail := ⟨step_next, exec_next⟩

/-- Settles O8: SETUP checks FRAME_REG[23:22], the bits of weight 2^22 and 2^23. -/
theorem invalidFrameRejected : Obligations.InvalidFrameRejected := by
  refine ⟨fun v s hb hf => exec_setup_rejected v hb hf, fun v s hb hle => ?_,
    fun s => frame_out_of_range_iff s.frameReg⟩
  have hf : s.frameReg.extractLsb' 22 2 = 0 := by
    by_contra hne
    have hge := (frame_out_of_range_iff s.frameReg).mp hne
    omega
  exact ⟨_, exec_setup_accepted v hb (beq_iff_eq.mpr hf), rfl, rfl⟩

/-- Settles O11: without a session both generate commands are turned away, and a rejected SETUP leaves none. -/
theorem notReadyRejected : Obligations.NotReadyRejected :=
  ⟨fun _ hb hr => ⟨exec_gen_notReady (.inl rfl) hb hr, exec_gen_notReady (.inr rfl) hb hr⟩, rfl,
    fun v _ hb hf => ⟨_, exec_setup_rejected v hb hf, rfl, hb⟩⟩

/-- Settles O12: GEN_DUAL is accepted with and without the code 4 in ERR, and its acceptance overwrites ERR. -/
theorem variantMismatchRejected : Obligations.VariantMismatchRejected := by
  refine fun s hb hr hv => ⟨exec_genSingle_nonLinear hb hr hv, ?_⟩
  calc exec .genDual { s with err := 4 }
    _ = .next (State.genDualAt { s with err := 4 } 0) := exec_genDual_accepted (s := { s with err := 4 }) hb hr
    _ = .next (s.genDualAt 0) := rfl
    _ = exec .genDual s := (exec_genDual_accepted hb hr).symm

/-- Settles O13: a legal and an illegal byte are dropped alike. -/
theorem busyDropsAnyWrite : Obligations.BusyDropsAnyWrite := fun v _ hb => commandWrite_busy v hb

end Sys2Proof.Machine
end

section
/-! PROOFS. Reset, timing and the unspecified read data: the countdown of a running command along a run through the
port, the edge of a cycle without the model's own fields, and the cycles that draw a free value of `rdata`; then the
statements of 70_reset_and_hazards.md. -/

namespace Sys2Proof.Machine

/-! ### The countdown along a run -/

namespace Countdown

theorem outside {n : Nat} {s : State} (hs : Countdown n s) (e k f h r d) : Countdown n (s.outside e k f h r d) :=
  ⟨hs.busy_eq, hs.step_lt, hs.left_eq⟩

/-- Each step without reset takes one micro-step off, whatever else the host does. -/
theorem runSteps_of_add {k n : Nat} {s : State} (hc : Countdown (k + n) s) (hhost : noResetFor k s.host = true) :
    ∃ u, runSteps k s = .next u ∧ Countdown n u := by
  have hbusy : ∀ j, j < k → (microRun j s).busy = true := fun j hj => hc.microRun_busy j (Nat.lt_add_right n hj)
  obtain ⟨e, key, f, h, r, d, hrun⟩ := runSteps_busy k s hbusy hhost
  exact ⟨_, hrun, hc.microRun_of_add.outside e key f h r d⟩

end Countdown

/-! ### The edge and the model's own fields -/

/-- The model's own fields are no input of a CMD write's edge. -/
theorem commandWrite_own (v : Byte) (h r d) {s u : State} (hu : commandWrite v s = .next u) :
    commandWrite v (s.own h r d) = .next (u.own h r d) := by
  cases hd : decode v with
  | command i =>
    rw [commandWrite_of_decode hd] at hu ⊢
    exact exec_own i h r d s u hu
  | illegal why =>
    have hv : (decode v).command? = none := by rw [hd]; rfl
    rw [commandWrite_illegal hv] at hu ⊢
    exact onCommand_own _ h r d s u (fun t ht => by cases ht; rfl) hu

/-- All that an edge can be, in the priority of 70_reset_and_hazards.md R222. -/
theorem clockEdge_cases (p : Pins) :
    (p.rst = true ∧ ∀ s, clockEdge p s = .next s.resetEdge) ∨
    (p.rst = false ∧ p.we = true ∧ ∀ s, clockEdge p s = commandWrite p.wdata s) ∨
    (p.rst = false ∧ ∀ s, clockEdge p s = .next (plainEdge p s)) := by
  cases hrst : p.rst with
  | true => exact .inl ⟨rfl, fun s => if_pos hrst⟩
  | false =>
    have hno : ¬p.rst = true := Bool.eq_false_iff.mp hrst
    by_cases hcmd : (p.we && p.addr == offsetCmd) = true
    · exact .inr (.inl ⟨rfl, (Bool.and_eq_true_iff.mp hcmd).1, fun s => (if_neg hno).trans (if_pos hcmd)⟩)
    · exact .inr (.inr ⟨rfl, fun s => (if_neg hno).trans (if_neg hcmd)⟩)

theorem clockEdge_next (p : Pins) (s : State) : ∃ u, clockEdge p s = .next u := by
  rcases clockEdge_cases p with ⟨_, hedge⟩ | ⟨_, _, hedge⟩ | ⟨_, hedge⟩
  · exact ⟨_, hedge s⟩
  · rw [hedge]
    exact commandWrite_next p.wdata s
  · exact ⟨_, hedge s⟩

/-- The model's own fields are no input of an edge. -/
theorem clockEdge_own (p : Pins) (h r d) {s u : State} (hu : clockEdge p s = .next u) :
    clockEdge p (s.own h r d) = .next (u.own h r d) := by
  rcases clockEdge_cases p with ⟨_, hedge⟩ | ⟨_, _, hedge⟩ | ⟨_, hedge⟩ <;> rw [hedge] at hu ⊢
  · cases hu
    rfl
  · exact commandWrite_own p.wdata h r d hu
  · cases hu
    rw [plainEdge_own]

/-- The read strobe is no input of an edge (70_reset_and_hazards.md R224). -/
theorem clockEdge_withRe (p : Pins) (b : Bool) (s : State) : clockEdge { p with re := b } s = clockEdge p s := rfl

theorem clockEdge_noWrite {p : Pins} (hrst : p.rst = false) (hwe : p.we = false) (s : State) :
    clockEdge p s = .next s.sequencerEdge := by
  rcases clockEdge_cases p with ⟨hrst', _⟩ | ⟨_, hwe', _⟩ | ⟨_, hedge⟩
  · cases hrst.symm.trans hrst'
  · cases hwe.symm.trans hwe'
  · rw [hedge, plainEdge, hwe, if_neg Bool.false_ne_true]

/-! ### The cycles that draw a free value -/

theorem portRead_reset {p : Pins} (hrst : p.rst = true) (s : State) :
    s.portRead p = s.drawRdata Config.resetRdata := if_pos hrst

theorem portRead_bothStrobes {p : Pins} (hrst : p.rst = false) (hre : p.re = true) (hwe : p.we = true) (s : State) :
    s.portRead p = s.drawRdata Config.bothStrobesRdata := by
  simp [State.portRead, hrst, hre, hwe]

theorem portRead_noRead {p : Pins} (hrst : p.rst = false) (hre : p.re = false) (s : State) :
    s.portRead p = s.drawRdata Config.idleRdata := by
  simp [State.portRead, hrst, hre]

/-- A cycle that draws a free value: the edge's part of the step, and the host's. -/
theorem step_of_draw {s u : State} {p : Pins} {rest : List HostAction} {free : Nat → Byte}
    (hhost : s.host = .cycle p :: rest) (hread : s.portRead p = s.drawRdata free) (hu : clockEdge p s = .next u) :
    step s = .next (u.own rest (free s.draws) (s.draws + 1)) := by
  have hsampled : s.sampled = s.own rest (free s.draws) (s.draws + 1) := by
    rw [sampled_of_cycle s p rest hhost, hread]
    rfl
  rw [step, pins_of_cycle s p rest hhost, hsampled]
  exact clockEdge_own p _ _ _ hu

/-! ### The statements -/

/-- Settles O30: the acceptance sets the countdown to the busy time, and the run takes it down. -/
theorem busyTimeIsFixed : Obligations.BusyTimeIsFixed := by
  intro i s t hs hst ht hhost
  have hc : Countdown (busyTime i) t := countdown_of_exec hs hst ht
  refine ⟨fun k hk => ?_, ?_⟩
  · obtain ⟨m, hm⟩ := Nat.exists_eq_add_of_lt hk
    have hkm : Countdown (k + (m + 1)) t := by rwa [hm] at hc
    obtain ⟨u, hrun, hleft⟩ := hkm.runSteps_of_add (noResetFor_of_le hk.le _ hhost)
    exact ⟨u, hrun, hleft.busy_of_succ⟩
  · obtain ⟨u, hrun, hdone⟩ := Countdown.runSteps_of_add (n := 0) hc hhost
    exact ⟨u, hrun, hdone.busy_of_zero, hdone.phase_idle⟩

/-- Settles O47: the edge sees neither the read strobe nor the value drawn. -/
theorem unspecifiedReadDataIsFree : Obligations.UnspecifiedReadDataIsFree := by
  refine ⟨fun s p rest hrst hwe => ?_, fun s p rest hhost hrst hwe hre => ?_,
    fun s hhost => ⟨_, step_done hhost, rfl, rfl, rfl, sameCore_own _ _ _ _⟩, fun s p rest hhost hrst => ?_⟩
  · obtain ⟨u, hu⟩ := clockEdge_next p s
    have hstep (b : Bool) (free : Nat → Byte) (hread : ∀ t : State, t.portRead { p with re := b } = t.drawRdata free) :
        step { s with host := .cycle { p with re := b } :: rest } = .next (u.own rest (free s.draws) (s.draws + 1)) := by
      have hedge := clockEdge_own { p with re := b } (.cycle { p with re := b } :: rest) s.rdata s.draws
        ((clockEdge_withRe p b s).trans hu)
      exact (step_of_draw rfl (hread _) hedge).trans rfl
    exact ⟨_, _, hstep true _ (portRead_bothStrobes hrst rfl hwe), hstep false _ (portRead_noRead hrst rfl),
      rfl, rfl, rfl, rfl, rfl, rfl⟩
  · exact ⟨_, step_of_draw hhost (portRead_noRead hrst hre s) (clockEdge_noWrite hrst hwe s), rfl, rfl, rfl,
      sameCore_own _ _ _ _⟩
  · obtain ⟨u, hu⟩ := clockEdge_next p s
    exact ⟨_, step_of_draw hhost (portRead_reset hrst s) hu, rfl, rfl, rfl⟩

/-- Settles O50: what the reset edge keeps is the model's own. -/
theorem resetIsConstant : Obligations.ResetIsConstant := by
  intro s p rest hhost hrst
  have hpins : s.pins.rst = true := by rw [pins_of_cycle s p rest hhost, hrst]
  exact ⟨_, step_reset s hpins, sameCore_own State.reset _ _ _⟩

end Sys2Proof.Machine
end
